-- ==== Sys2Proof/Word.lean ====
section
/-! DEFINITION. The bit patterns OOKMOD handles: command words and stored samples (16 bits), key codes (8 bits),
frames (11 bits) and the polarity bit. Bit 0 is the least significant bit (R13); frame bit `j` is bit `j` of a `Frame` (R21). -/

namespace Sys2Proof

/-- A 16-bit pattern: a command word (R70) or one stored sample (R50). -/
abbrev Word := BitVec 16

/-- A key code, unsigned, every value legal (R20, R73). -/
abbrev Key := BitVec 8

/-- A frame of eleven bits; bit `j` is the bit sent at place `j` in time (R21, R91). -/
abbrev Frame := BitVec 11

/-- The polarity bit: 0 stands for the multiplier +1 and 1 for -1 (R22). -/
abbrev Polarity := BitVec 1

end Sys2Proof
end

