-- ==== Sys2Proof/Syntax.lean ====
section
/-! DEFINITION. The six commands of OOKMOD (R72), one constructor per row of spec/opcode_table.json, and the text form
of a command before its operand is known to fit the field (R79). -/

namespace Sys2Proof

/-- A command, as the block executes it (R72). SYNTH and SHUTDOWN carry nothing: the operands of SYNTH are registers (R75). -/
inductive Instr where
  /-- ENCODE k (R94). -/
  | encode (k : Key)
  /-- SYNTH (R103). -/
  | synth
  /-- SETPOL b; `b = 1` is "inverted" (R74, R101). -/
  | setpol (b : Polarity)
  /-- TRANSMIT k (R130). -/
  | transmit (k : Key)
  /-- STARTREPEAT k (R140). -/
  | startrepeat (k : Key)
  /-- SHUTDOWN (R145). -/
  | shutdown
  deriving DecidableEq, Repr

/-- The three formats of a command word (R71). -/
inductive Format where
  /-- `imm8` is a key code. -/
  | K
  /-- `imm8` is one bit, bits 7:1 zero. -/
  | B
  /-- `imm8` is zero. -/
  | Z
  deriving DecidableEq, Repr

/-- The six mnemonics (R72). -/
inductive Mnemonic where
  | encode | synth | setpol | transmit | startrepeat | shutdown
  deriving DecidableEq, Repr

/-- The format of each command (R71, R72). -/
def Mnemonic.format : Mnemonic → Format
  | .encode => .K
  | .synth => .Z
  | .setpol => .B
  | .transmit => .K
  | .startrepeat => .K
  | .shutdown => .Z

/-- A command as a host writes it down: a mnemonic and an integer operand, if it gives one (R79). The integer may be
wider than the field, which is what `Line.wellFormed` checks (R73). -/
structure Line where
  mnemonic : Mnemonic
  operand : Option Nat
  deriving DecidableEq, Repr

end Sys2Proof
end

