-- ==== Sys2Proof/WellFormed.lean ====
section
/-! DEFINITION. What makes a written command and a command word well formed: the operand fits its format (R71, R73, R74),
the word matches one of the six patterns of R76. -/

namespace Sys2Proof

/-- The operand a format takes: a key code in 0 .. 255, a bit, or none (R71, R73, R74). -/
def Format.accepts : Format → Option Nat → Bool
  | .K, some k => decide (k < 256)
  | .B, some b => decide (b < 2)
  | .Z, none => true
  | .K, none => false
  | .B, none => false
  | .Z, some _ => false

/-- A written command whose operand its format takes. A key code above 255 is never cut down to eight bits (R73). -/
def Line.wellFormed (l : Line) : Bool := l.mnemonic.format.accepts l.operand

/-- One row of the opcode table: a word belongs to the row when `w &&& mask = pattern` (R76). -/
structure Pattern where
  mnemonic : Mnemonic
  mask : Word
  pattern : Word
  deriving DecidableEq, Repr

/-- The word belongs to the row. -/
def Pattern.fits (p : Pattern) (w : Word) : Bool := w &&& p.mask == p.pattern

/-- The six match and mask pairs of R76. -/
def opcodeTable : List Pattern :=
  [ ⟨.encode, 0xFF00#16, 0x1000#16⟩,
    ⟨.synth, 0xFFFF#16, 0x2000#16⟩,
    ⟨.setpol, 0xFFFE#16, 0x3000#16⟩,
    ⟨.transmit, 0xFF00#16, 0x4000#16⟩,
    ⟨.startrepeat, 0xFF00#16, 0x5000#16⟩,
    ⟨.shutdown, 0xFFFF#16, 0x6000#16⟩ ]

/-- A legal command word: it matches some pattern of R76; every other word is illegal (R77). -/
def legalWord (w : Word) : Bool := opcodeTable.any (·.fits w)

end Sys2Proof
end

