-- ==== Sys2Proof/Decode.lean ====
section
/-! DEFINITION. Decoding of a command word in the order of R76, total on all 65536 words and rejecting by name; then the
encoder, from the same table (R71, R72). -/

namespace Sys2Proof

/-- Field `op`, bits 15:12 (R71). -/
def opField (w : Word) : BitVec 4 := w.extractLsb' 12 4

/-- Field `z`, bits 11:8, must be 0 (R71). -/
def zField (w : Word) : BitVec 4 := w.extractLsb' 8 4

/-- Field `imm8`, bits 7:0 (R71). -/
def immField (w : Word) : BitVec 8 := w.extractLsb' 0 8

/-- The key operand: `imm8` as it stands, not extended or scaled (R73). -/
def keyOperand (w : Word) : Key := immField w

/-- The polarity operand: bit 0 of `imm8` (R74). -/
def polarityOperand (w : Word) : Polarity := w.extractLsb' 0 1

/-- Bits 7:1 of `imm8`, which SETPOL needs to be zero (R74). -/
def polarityRest (w : Word) : BitVec 7 := w.extractLsb' 1 7

/-- Why a word is no command (R77). -/
inductive DecodeError where
  /-- `w[11:8]` is not 0. -/
  | reservedBits
  /-- `op` is 0 or 7 .. 15. -/
  | unusedOperation
  /-- SYNTH or SHUTDOWN with a non-zero `imm8`, or SETPOL with `imm8 >= 2`. -/
  | operandNotAllowed
  deriving DecidableEq, Repr

/-- Decoding of a command word (R76): first `z`, then `op`, then the operand bits that must be zero. -/
def decode (w : Word) : Except DecodeError Instr :=
  if zField w ≠ 0#4 then .error .reservedBits
  else if opField w = 0x1#4 then .ok (.encode (keyOperand w))
  else if opField w = 0x2#4 then
    if immField w = 0#8 then .ok .synth else .error .operandNotAllowed
  else if opField w = 0x3#4 then
    if polarityRest w = 0#7 then .ok (.setpol (polarityOperand w)) else .error .operandNotAllowed
  else if opField w = 0x4#4 then .ok (.transmit (keyOperand w))
  else if opField w = 0x5#4 then .ok (.startrepeat (keyOperand w))
  else if opField w = 0x6#4 then
    if immField w = 0#8 then .ok .shutdown else .error .operandNotAllowed
  else .error .unusedOperation

/-- The command word of a command (R71, R72): `op`, four zero bits, `imm8`. -/
def encode : Instr → Word
  | .encode k => 0x10#8 ++ k
  | .synth => 0x2000#16
  | .setpol b => 0x1800#15 ++ b
  | .transmit k => 0x40#8 ++ k
  | .startrepeat k => 0x50#8 ++ k
  | .shutdown => 0x6000#16

/-- The command a well-formed written command stands for; none for an ill-formed one (R73, R79). -/
def Line.instr (l : Line) : Option Instr :=
  if l.wellFormed then
    let n := l.operand.getD 0
    match l.mnemonic with
    | .encode => some (.encode (BitVec.ofNat 8 n))
    | .synth => some .synth
    | .setpol => some (.setpol (BitVec.ofNat 1 n))
    | .transmit => some (.transmit (BitVec.ofNat 8 n))
    | .startrepeat => some (.startrepeat (BitVec.ofNat 8 n))
    | .shutdown => some .shutdown
  else none

/-- The command in the low `nbits` bits of `w`, numbered as spec/opcode_table.json numbers them: a command is one 16-bit
word given whole (R70), so every bit above `nbits` counts as 0 and a number of more than 16 bits is no command word. -/
def decodeTableWord (nbits w : Nat) : Option Instr :=
  let bits := w % 2 ^ nbits
  if bits < 2 ^ 16 then (decode (BitVec.ofNat 16 bits)).toOption else none

end Sys2Proof
end

