-- ==== Sys2Proof/Config.lean ====
section
/-! DEFINITION. What is fixed for the block (R7, R12), what the reset sequence is given from outside (R8, R11, R181 to R183),
and the free value of the sine unit. -/

namespace Sys2Proof

/-- Carrier frequency in Hz (R7), hardwired CR6. -/
def Config.FC : Nat := 16386

/-- Carrier periods nominally emitted per on bit (R7), hardwired CR7. -/
def Config.PERIODS : Nat := 8

/-- Bits of a frame (R7). -/
def Config.NBITS : Nat := 11

/-- Settle duration in milliseconds (R7). The model has no time: only the order of events rests on the timer (R135). -/
def Config.SETTLE_MS : Nat := 20

/-- Auto-repeat interval in milliseconds (R7). The model has no time (R141). -/
def Config.REPEAT_MS : Nat := 500

/-- Channels the device is configured with (R7, R171). -/
def Config.CHANNELS : Nat := 1

/-- Bits per sample the device is configured with (R7, R171). -/
def Config.BITDEPTH : Nat := 16

/-- The mode the device is configured with (R43, R170, R171): the spec names no other. -/
inductive BufferMode where
  | staticBuffer
  deriving DecidableEq, Repr

/-- The mode of the block's one configure call (R171). -/
def Config.MODE : BufferMode := .staticBuffer

/-- Full positive range of a signed 16-bit sample (R12), hardwired CR10. -/
def Config.AMAX : Nat := 32767

/-- The source's `multiplier` M = FS / (2 * FC), an exact rational, never rounded (R9). -/
def Config.multiplier (fs : Nat) : Rat := (fs : Rat) / (2 * Config.FC)

/-- SPB = floor(8 * FS / 16386), rounded down once at the end (R10). -/
def Config.samplesPerBit (fs : Nat) : Nat := Config.PERIODS * fs / Config.FC

/-- The device at startup, as the reset sequence meets it (R182). -/
inductive StartupDevice where
  /-- No output device is available; no call is made. -/
  | absent
  /-- A device is available and answers `configure` with ok (`true`) or fail (`false`). -/
  | answers (ok : Bool)
  deriving DecidableEq, Repr

/-- What the outside gives one reset sequence: the native sample rate the device query reports (R181), the device (R182)
and the persisted polarity preference (R183). All three are open in the spec. -/
structure Startup where
  /-- FS, an integer of at least 2049 (R8). -/
  fs : Nat
  device : StartupDevice
  /-- POL_PREF (R11). -/
  polPref : Polarity
  deriving DecidableEq, Repr

/-- A sample rate the rules speak of: at least 2049 (R8, R181), and held by the 32 bits of CR5 (R34). -/
def Startup.admitted (r : Startup) : Bool := decide (2049 ≤ r.fs) && decide (r.fs < 2 ^ 32)

/-- The inputs `State.reset` starts from. DESIGN CHOICE (log 3), unsafe: the spec leaves all three open and these are the
inputs of its vector Z1; statements range over every `Startup` instead. -/
def Config.startup : Startup := ⟨44100, .answers true, 0#1⟩

/-- CARRIER_TOL of `State.reset`: the spec's default, bit exact (R12; log 4). -/
def Config.carrierTol : Nat := 0

/-- Free value (log 6): by how much the sine unit departs from the reference at sample rate `fs` and phase `p`, before it
is cut to CARRIER_TOL (R113). Nothing constrains it, and with CARRIER_TOL = 0 it is never read. -/
opaque Config.sineDeviation : Nat → Nat → Int

end Sys2Proof
end

