-- ==== Sys2Proof/Machine/State.lean ====
section
/-! DEFINITION. The state of OOKMOD: every register, flag and piece of hidden state of 10_state.md, the record of the device
calls and of the command responses, and the moves the outside makes next; the reasons a step can stop; the state after reset. -/

namespace Sys2Proof.Machine

/-- The state of the audio output device handle as the block knows it (R26). -/
inductive Device where
  /-- 0, only inside the reset sequence. -/
  | unconfigured
  /-- 1. -/
  | ready
  /-- 2, setup failed. -/
  | failed
  /-- 3, after SHUTDOWN. -/
  | released
  deriving DecidableEq, Repr

/-- The auto-repeat state: the flag RPT with the register RKEY, which holds a key exactly while RPT = 1 (R24). -/
inductive Repeat where
  | idle
  | repeating (k : Key)
  deriving DecidableEq, Repr

/-- The response codes and the contents of ERR (R151). -/
inductive Code where
  | ok | setup | write | play | stop | reload | illegal | noFrame | released
  deriving DecidableEq, Repr

/-- TSTAGE while a transaction is in flight: the stage that runs next (R42, R131). -/
inductive Stage where
  | encode | synth | write | play | wait | stop | reload
  deriving DecidableEq, Repr

/-- TSRC: whether a host command waits for the transaction's response (R42). -/
inductive Source where
  | host | tick
  deriving DecidableEq, Repr

/-- The transaction in flight: TSTAGE, TKEY and TSRC, which have values exactly while one is in flight (R42). -/
structure Txn where
  stage : Stage
  key : Key
  src : Source
  deriving DecidableEq, Repr

/-- One device call with its arguments and its answer, ok as `true` (R43, R170). `release` has no answer (R145). -/
inductive DevCall where
  /-- `configure(fs, channels, bits, static-buffer)`. -/
  | configure (fs channels bits : Nat) (mode : BufferMode) (ok : Bool)
  | write (samples : List Int) (ok : Bool)
  | play (ok : Bool)
  | stop (ok : Bool)
  | reloadBuffer (ok : Bool)
  | release
  deriving DecidableEq, Repr

/-- One move of one agent (R15, R83, R156): the inputs of the block's step relation. -/
inductive Move where
  /-- The host gives a command word on the command port (R70, R176). -/
  | host (w : Word)
  /-- The control shell goes on: a stage that needs no outside answer, the held command, or an enabled tick. -/
  | shell
  /-- The tick goes first (R142, R161). -/
  | tick
  /-- The repeat timer expires (R157). -/
  | repeatExpiry
  /-- The settle timer expires (R158). -/
  | settleExpiry
  /-- The settle wait is interrupted from outside (R159). -/
  | settleInterrupt
  /-- The device answers the outstanding call (R160). -/
  | answer (ok : Bool)
  /-- Reset, with what the outside gives the reset sequence (R180). -/
  | reset (r : Startup)
  deriving DecidableEq, Repr

/-- The sample memory as a list of (sample index, word), indices strictly rising; an index that is not listed holds no
value (R23, R50). The unit of addressing is the sample, so a cell is 16 bits wide (log 8). -/
abbrev Memory := List (Nat × Word)

/-- Why a step stops with a fault. Neither is reached from a state that meets `State.Inv`. -/
inductive Fault where
  /-- The Synth stage of a transaction found FRAME without a value. Raised by `synthStage`; safe: R133 rules it out. -/
  | noFrame
  /-- The Write stage of a transaction found a word of BUF without a value. Raised by `writeStage`; safe: R59 rules it out. -/
  | noSample
  deriving DecidableEq, Repr

/-- Why a step, or a read through the sample port, is refused. -/
inductive Refusal where
  /-- An instruction without a meaning: the answer of a refused arm of `exec`, none of which is left; safe. -/
  | notModelled (mnemonic : String)
  /-- The host gives a word before it has the response to the previous one (R188, U20): the spec gives the host no such
  move. Raised by `hostMove`; safe. -/
  | commandOverlap
  /-- Reset with a sample rate outside 2049 .. 2^32 - 1 (R181, U2). Raised by `resetMove`; safe. -/
  | sampleRateOutsideRules
  /-- `SampleRead` while BV = 0 or at an index that is no word of BUF (R52, U14). Raised by `sampleRead`; safe. -/
  | sampleReadRefused
  deriving DecidableEq, Repr

/-- The state of the block (10_state.md), with the model's own `responses` and `moves`. -/
structure State where
  /-- KEY (R20); `none` is the spec's "no value". -/
  key : Option Key
  /-- FRAME (R21); `none` is the spec's "no value", which FV = 0 marks (R32). -/
  frame : Option Frame
  /-- POL (R22). -/
  pol : Polarity
  /-- BUF (R23). -/
  buf : Memory
  /-- BV (R33). -/
  bv : Bool
  /-- RPT with RKEY (R24). -/
  rpt : Repeat
  /-- DUE (R25). -/
  due : Bool
  /-- DEV (R26). -/
  dev : Device
  /-- ERR, the first error since reset (R36). -/
  err : Code
  /-- FS (R37). -/
  fs : Nat
  /-- SPB (R37, R10). -/
  spb : Nat
  /-- TOTAL (R37). -/
  total : Nat
  /-- CARRIER_TOL, a constant of the block (R12); nothing writes it. -/
  tol : Nat
  /-- TSTAGE, TKEY and TSRC (R42). -/
  inflight : Option Txn
  /-- HELD (R42). -/
  held : Option Instr
  /-- DEVTRACE, the device calls since reset, oldest first (R43). -/
  devtrace : List DevCall
  /-- The responses given on the command port since reset, oldest first (R43, R70; log 16). -/
  responses : List Code
  /-- The model's own: what the agents do next, the next move first (log 2). -/
  moves : List Move
  deriving DecidableEq, Repr

/-- The machine right after a reset sequence with the inputs `Config.startup` (R44, R180 to R184). -/
def State.reset : State where
  key := none
  frame := none
  pol := Config.startup.polPref
  buf := []
  bv := false
  rpt := .idle
  due := false
  dev := .ready
  err := .ok
  fs := Config.startup.fs
  spb := Config.samplesPerBit Config.startup.fs
  total := Config.NBITS * Config.samplesPerBit Config.startup.fs
  tol := Config.carrierTol
  inflight := none
  held := none
  devtrace := [.configure Config.startup.fs Config.CHANNELS Config.BITDEPTH Config.MODE true]
  responses := []
  moves := []

end Sys2Proof.Machine
end

