-- ==== Sys2Proof/Machine/Ops.lean ====
section
/-! DEFINITION. The named operations over the sample memory and the registers: the access of one sample, raising an error
(what stands here in place of an exception), Cancel, holding a command, recording a device call, loading the frame, ending a
transaction, and the reset sequence. -/

namespace Sys2Proof.Machine

/-- The word at a sample index; `none` where no word is listed, which holds no value (R23, R52). -/
def Memory.read : Memory → Nat → Option Word
  | [], _ => none
  | (j, v) :: m, i => if i = j then some v else Memory.read m i

/-- `MemWrite(i, 16, v)` (R50): the other cells stay, the list stays in rising order. -/
def Memory.write : Memory → Nat → Word → Memory
  | [], i, w => [(i, w)]
  | (j, v) :: m, i, w =>
    if i < j then (i, w) :: (j, v) :: m
    else if i = j then (i, w) :: m
    else (j, v) :: Memory.write m i w

/-- The stores of R118: one word after another at rising indices from `i`. -/
def Memory.writeFrom : Memory → Nat → List Word → Memory
  | m, _, [] => m
  | m, i, w :: ws => Memory.writeFrom (Memory.write m i w) (i + 1) ws

/-- The canonical form: indices strictly rising. An unlisted index holds no value, so no listed word can equal it. -/
abbrev Memory.wf (m : Memory) : Prop := m.Pairwise (fun a b => a.1 < b.1)

/-- Every index below `n` holds a value. -/
def Memory.filled (m : Memory) (n : Nat) : Bool := (List.range n).all (fun i => (Memory.read m i).isSome)

/-- `BUF[0 .. n-1]` as signed integers, in index order (R14, R134). Read only where `Memory.filled m n`. -/
def Memory.samples (m : Memory) (n : Nat) : List Int :=
  (List.range n).map (fun i => ((Memory.read m i).getD 0#16).toInt)

/-- The bytes of one sample on a byte-wide path, the less significant first (R53). -/
def sampleBytes (w : Word) : List (BitVec 8) := [w.extractLsb' 0 8, w.extractLsb' 8 8]

/-- `respond c`: the response of the host command that waits (R14, R70). -/
def respond (c : Code) (s : State) : State := { s with responses := s.responses ++ [c] }

/-- Raising an error, the one operation all errors go through (R150): ERR takes the code if it holds none (R152), and
the code is the response where a host command waits. Nothing is saved, no mode changes, and there is nothing to return
from (R163, R164). -/
def raise (c : Code) (waiting : Bool) (s : State) : State :=
  { s with
    err := if s.err = .ok then c else s.err
    responses := if waiting then s.responses ++ [c] else s.responses }

/-- `Cancel()` (R143): RPT becomes Idle, RKEY loses its value, DUE is cleared; the repeat timer runs only while RPT = 1. -/
def cancel (s : State) : State := { s with rpt := .idle, due := false }

/-- The command waits in HELD for the end of the transaction in flight (R136). -/
def hold (i : Instr) (s : State) : State := { s with held := some i }

/-- One device call goes into DEVTRACE (R43). -/
def logCall (d : DevCall) (s : State) : State := { s with devtrace := s.devtrace ++ [d] }

/-- KEY and FRAME take their values together, which is FV becoming 1 (R94). -/
def loadFrame (k : Key) (f : Frame) (s : State) : State := { s with key := some k, frame := some f }

/-- All words of BUF are written in ascending order from index 0, and BV becomes 1 (R103, R118). -/
def fillBuffer (ws : List Word) (s : State) : State := { s with buf := Memory.writeFrom s.buf 0 ws, bv := true }

/-- A transaction of key `k` begins: TKEY, TSRC, and the Encode stage comes next (R131). -/
def beginTxn (k : Key) (src : Source) (s : State) : State := { s with inflight := some ⟨.encode, k, src⟩ }

/-- The transaction `t` goes on to the stage `g` (R131). -/
def goTo (g : Stage) (t : Txn) (s : State) : State := { s with inflight := some { t with stage := g } }

/-- The transaction `t` ends with the code `c`: OK after the Reload stage, an error on an abort. TSTAGE becomes None, the
error goes to ERR, and the code is the response where a host command waits (R131, R139). -/
def endTxn (c : Code) (t : Txn) (s : State) : State :=
  { raise c (decide (t.src = .host)) s with inflight := none }

/-- The reset sequence as one step (R180 to R184), with what the outside gives it. The tolerance is a constant of the
block, and what the outside does later is not the block's to clear, so both come in as arguments (log 20). -/
def startUp (tol : Nat) (moves : List Move) (r : Startup) : State where
  key := none
  frame := none
  pol := r.polPref
  buf := []
  bv := false
  rpt := .idle
  due := false
  dev := if r.device = .answers true then .ready else .failed
  err := if r.device = .answers true then .ok else .setup
  fs := r.fs
  spb := Config.samplesPerBit r.fs
  total := Config.NBITS * Config.samplesPerBit r.fs
  tol := tol
  inflight := none
  held := none
  devtrace := match r.device with
    | .absent => []
    | .answers ok => [.configure r.fs Config.CHANNELS Config.BITDEPTH Config.MODE ok]
  responses := []
  moves := moves

end Sys2Proof.Machine
end

