-- ==== Sys2Proof/Machine/Flags.lean ====
section
/-! DEFINITION. The status flags (R30 to R33), the codes of the enumerated registers and the STATUS word (R35). OOKMOD has no
condition codes: no command sets a flag from a value it computes. -/

namespace Sys2Proof.Machine

/-- BUSY: a transaction is in flight (R31). -/
def State.busy (s : State) : Bool := s.inflight.isSome

/-- FV: KEY and FRAME hold the result of an encode (R32). -/
def State.fv (s : State) : Bool := s.frame.isSome

/-- RPT as a bit (R24). -/
def State.repeats (s : State) : Bool := s.rpt ≠ .idle

/-- A host command waits for its response: it is held, or its transaction is in flight (R42, R136). -/
def State.hostWaits (s : State) : Bool :=
  s.held.isSome || s.inflight.any (fun t => t.src = .host)

/-- The tick is enabled: RPT = 1, DUE = 1, BUSY = 0, DEV = Ready (R142). -/
def State.tickEnabled (s : State) : Bool := s.repeats && s.due && !s.busy && decide (s.dev = .ready)

/-- The repeat timer runs (R141, R168). -/
def State.repeatTimerRuns (s : State) : Bool := s.repeats

/-- The settle timer runs: only during a Wait stage (R158, R167). -/
def State.settleTimerRuns (s : State) : Bool := s.inflight.any (fun t => t.stage = .wait)

/-- The two bits of DEV (R26). -/
def Device.bits : Device → BitVec 2
  | .unconfigured => 0#2
  | .ready => 1#2
  | .failed => 2#2
  | .released => 3#2

/-- The four bits of a code, in a response and in ERR (R151). -/
def Code.bits : Code → BitVec 4
  | .ok => 0#4
  | .setup => 1#4
  | .write => 2#4
  | .play => 3#4
  | .stop => 4#4
  | .reload => 5#4
  | .illegal => 6#4
  | .noFrame => 7#4
  | .released => 8#4

/-- STATUS: BUSY in bit 0, FV in bit 1, BV in bit 2, RPT in bit 3, DEV in bits 5:4 (R35). -/
def State.status (s : State) : BitVec 6 :=
  s.dev.bits ++ BitVec.ofBool s.repeats ++ BitVec.ofBool s.bv ++ BitVec.ofBool s.fv ++ BitVec.ofBool s.busy

end Sys2Proof.Machine
end

