-- ==== Sys2Proof/Machine/Operands.lean ====
section
/-! DEFINITION. What a command reads besides its word: the implicit operands of SYNTH (R75), and the two read ports
through which the host sees registers and samples (R34, R52). No read has a side effect (R56). -/

namespace Sys2Proof.Machine

/-- The multiplier of a polarity: `1 - 2 * POL`, that is +1 or -1 (R22). -/
def polSign (b : Polarity) : Int := 1 - 2 * b.toNat

/-- The frame bit that owns sample index `i`: `(i div SPB) mod 11` (R104). -/
def bitIndex (spb i : Nat) : Nat := i / spb % Config.NBITS

/-- The carrier phase at sample index `i`: `(i * FC) mod FS` (R110). -/
def phaseAt (fs i : Nat) : Nat := i * Config.FC % fs

/-- One advance of the phase accumulator (R110). -/
def phaseNext (fs p : Nat) : Nat := (p + Config.FC) % fs

/-- RKEY as the read port shows it: 0 while RPT = 0 (R38). -/
def Repeat.keyBits : Repeat → Key
  | .idle => 0#8
  | .repeating k => k

/-- The register read port: 32 bits, zero extended, and 0 for a number above 11 (R34). KEY and FRAME read 0 while FV = 0
(R38). -/
def State.readCR (s : State) (n : Nat) : BitVec 32 :=
  match n with
  | 0 => s.status.setWidth 32
  | 1 => s.err.bits.setWidth 32
  | 2 => if s.fv then (s.key.getD 0#8).setWidth 32 else 0#32
  | 3 => (s.frame.getD 0#11).setWidth 32
  | 4 => s.pol.setWidth 32
  | 5 => BitVec.ofNat 32 s.fs
  | 6 => BitVec.ofNat 32 Config.FC
  | 7 => BitVec.ofNat 32 Config.PERIODS
  | 8 => BitVec.ofNat 32 s.spb
  | 9 => BitVec.ofNat 32 s.total
  | 10 => BitVec.ofNat 32 Config.AMAX
  | 11 => s.rpt.keyBits.setWidth 32
  | _ => 0#32

/-- `SampleRead(i)`: the sample at index `i`, refused while BV = 0 and where there is no word (R52). -/
def State.sampleRead (s : State) (i : Nat) : Except Refusal Int :=
  if s.bv && decide (i < s.total) then
    match Memory.read s.buf i with
    | some w => .ok w.toInt
    | none => .error .sampleReadRefused
  else .error .sampleReadRefused

end Sys2Proof.Machine
end

