-- ==== Sys2Proof/Machine/FrameEncoder.lean ====
section
/-! DEFINITION. The Frame Encoder: parity, the frame of a key code, and ENCODE (R90 to R97). -/

namespace Sys2Proof.Machine

/-- The parity of a key code by the XOR fold of R92, logical shifts on eight bits (R93). -/
def parity (k : Key) : BitVec 1 :=
  let p := k ^^^ (k >>> 4)
  let p := p ^^^ (p >>> 2)
  let p := p ^^^ (p >>> 1)
  (p &&& 1#8).extractLsb' 0 1

/-- `Frame(k)`: stop 0, the complemented parity, the complemented key bits, start 1, from bit 10 down to bit 0 (R91, R94). -/
def frameOf (k : Key) : Frame := 0#1 ++ (~~~ parity k) ++ (~~~ k) ++ 1#1

/-- What ENCODE and the Encode stage do: KEY, FRAME and with them FV (R94, R132). -/
def encodeKey (k : Key) (s : State) : State := loadFrame k (frameOf k) s

/-- ENCODE once it may go: its effect and the response OK (R94). -/
def encodePhase (k : Key) (s : State) : State := respond .ok (encodeKey k s)

/-- ENCODE k (R94): E_RELEASED after SHUTDOWN, held while BUSY = 1 (R162). -/
def execEncode (k : Key) (s : State) : Host.Outcome State Fault Refusal :=
  .next (if s.dev = .released then raise .released true s
    else if s.busy then hold (.encode k) s
    else encodePhase k s)

end Sys2Proof.Machine
end

