-- ==== Sys2Proof/Machine/Sine.lean ====
section
/-! DEFINITION. The sine unit (R111 to R116). The reference value is computed in exact integers: twenty digits of pi and a Taylor
sum give an interval, and where its two ends round to different integers an exact comparison, with no digits of pi, chooses
between them (log 5). The unit itself may depart from the reference by at most CARRIER_TOL (R113; log 6). -/

namespace Sys2Proof.Machine

/-- pi * 10^20 rounded down. PRESUMED (log 5): the digits are general knowledge. -/
def piDigits : Nat := 314159265358979323846

/-- The scale of `piDigits`. -/
def piScale : Nat := 10 ^ 20

/-- Term `j` of the sine series at `a / b`, over the common denominator `25! * b^25`. -/
def sineTerm (a b j : Nat) : Nat :=
  a ^ (2 * j + 1) * b ^ (2 * (12 - j)) * (Nat.factorial 25 / Nat.factorial (2 * j + 1))

/-- `f 0 - f 1 + f 2 - ...`, `n` terms. -/
def alternatingSum (f : Nat → Nat) : Nat → Int
  | 0 => 0
  | n + 1 => alternatingSum f n + (if n % 2 = 0 then Int.ofNat (f n) else - Int.ofNat (f n))

/-- The numerator of the thirteen-term sine series at the angle `2 * pi * n / d`, with pi cut to `piDigits`. -/
def sineNumerator (n d : Nat) : Int := alternatingSum (sineTerm (2 * n * piDigits) (d * piScale)) 13

/-- Its denominator. -/
def sineDenominator (d : Nat) : Nat := Nat.factorial 25 * (d * piScale) ^ 25

/-- `floor(32767 * S + 1/2 + e * 32767 / 10^20)` for the series value `S` and `e` = -1 or 1: the rounding (R111) of the two
ends of an interval that holds `32767 * sin(2 * pi * n / d)`. -/
def sineEnd (n d : Nat) (e : Int) : Int :=
  (2 * piScale * Config.AMAX * sineNumerator n d + (piScale + 2 * e * Config.AMAX) * sineDenominator d)
    / (2 * piScale * sineDenominator d)

/-- The two ends round to one integer, which then is the rounded sine. -/
def sineDecided (n d : Nat) : Bool := sineEnd n d (-1) == sineEnd n d 1

/-- The number of half turns in `k * phi`, rounded down, where `2 * AMAX * cos phi = c`, `0 < phi < pi`: `m` more steps from
the count `h` at some `k`, with `a` and `b` proportional to `sin ((k - 1) * phi)` and `sin (k * phi)`. Each step is below one
half turn, so the count goes up exactly where the sine leaves its sign, `(-1)^h`. -/
def halfTurns (c : Int) : Nat → Nat → Int → Int → Nat
  | 0, h, _, _ => h
  | m + 1, h, a, b =>
    let e := c * b - Config.AMAX ^ 2 * a
    halfTurns c m (if (-1) ^ h * e ≤ 0 then h + 1 else h) b e

/-- `v - 1/2 <= 32767 * sin(2 * pi * n / d)`, decided exactly for `0 < v <= 32767`, `0 < d` and `0 <= 4 * n <= d`: with
`2 * AMAX * cos phi = 2 * v - 1` it says that the angle from `n / d` to the quarter turn is at most `phi`. -/
def sineReaches (n d : Nat) (v : Int) : Bool := decide (d ≤ 4 * n + halfTurns (2 * v - 1) (2 * d - 1) 0 0 1)

/-- The reference value at `n / d` of a turn in lowest terms, `0 <= 4 * n <= d` (R112): the integer both ends round to; where
they differ, the upper one exactly if `32767 * sin` reaches the half below it, so that a tie goes away from zero (R111). -/
def reducedSine (n d : Nat) : Int :=
  if sineDecided n d then sineEnd n d 1
  else if sineReaches n d (sineEnd n d 1) then sineEnd n d 1 else sineEnd n d (-1)

/-- `v` cut to `-b .. b`. -/
def cut (b : Nat) (v : Int) : Int := max (- (b : Int)) (min (b : Int) v)

/-- The reference value in the first quarter turn; it depends on the angle `n / d` alone. The cut never acts (R116). -/
def quarterSine (n d : Nat) : Int :=
  cut Config.AMAX (reducedSine (n / Nat.gcd n d) (d / Nat.gcd n d))

/-- The reference value at phase `h` of the first half turn, `2 * h <= fs`: zero at both ends (R113 S2), and symmetric
about the quarter turn. -/
def halfReference (fs h : Nat) : Int :=
  if h = 0 ∨ 2 * h = fs then 0 else quarterSine (min (2 * h) (fs - 2 * h)) (2 * fs)

/-- A value given on the first half turn continued to the whole turn by odd symmetry (R113 S3). -/
def oddFold (f : Nat → Int) (fs p : Nat) : Int := if 2 * p ≤ fs then f p else - f (fs - p)

/-- `SinRef(p) = RHAZ(32767 * sin(2 * pi * p / FS))`, the reference (R112, R113). -/
def sinRef (fs p : Nat) : Int := oddFold (halfReference fs) fs p

/-- The sine unit on the first half turn: the reference with a free departure of at most CARRIER_TOL (R113 S1), zero where
S2 asks for it, inside the range of S4. -/
def halfUnit (tol fs h : Nat) : Int :=
  if h = 0 ∨ 2 * h = fs then 0
  else cut Config.AMAX (halfReference fs h + cut tol (Config.sineDeviation fs h))

/-- The sine unit `sinq` (R113): a function of the phase and FS alone (S5), the reference itself when CARRIER_TOL = 0. -/
def sinq (tol fs p : Nat) : Int :=
  if tol = 0 then sinRef fs p else oddFold (halfUnit tol fs) fs p

/-- One entry of the lookup table of R114 for a table of `n` entries: `T[q] = RHAZ(32767 * sin(2 * pi * q / N))`. -/
def tableEntry (n q : Nat) : Int := sinRef n q

/-- The number of entries of the exact lookup table: `N = FS / gcd(FS, FC)` (R110, R114). -/
def tableSize (fs : Nat) : Nat := fs / Nat.gcd fs Config.FC

/-- The address of the lookup table at sample index `i`: `(i * (FC / g)) mod N` (R114). -/
def tableAddress (fs i : Nat) : Nat := i * (Config.FC / Nat.gcd fs Config.FC) % tableSize fs

end Sys2Proof.Machine
end

