-- ==== Sys2Proof/Machine/Waveform.lean ====
section
/-! DEFINITION. The Waveform Synthesizer: SETPOL, the samples of a frame, SYNTH (R100 to R124). -/

namespace Sys2Proof.Machine

/-- SETPOL once it may go: POL and the response OK (R101). -/
def setpolPhase (b : Polarity) (s : State) : State := respond .ok { s with pol := b }

/-- SETPOL b (R101): E_RELEASED after SHUTDOWN, held while BUSY = 1, so that it takes effect on the next transmission. -/
def execSetpol (b : Polarity) (s : State) : Host.Outcome State Fault Refusal :=
  .next (if s.dev = .released then raise .released true s
    else if s.busy then hold (.setpol b) s
    else setpolPhase b s)

/-- The value of sample `i` of the frame `f`: the carrier where the owning frame bit is 1, else 0 (R103, R106, R112). -/
def sampleValue (s : State) (f : Frame) (i : Nat) : Int :=
  if f.getLsbD (bitIndex s.spb i) then polSign s.pol * sinq s.tol s.fs (phaseAt s.fs i) else 0

/-- All TOTAL words SYNTH stores, sample `i` as `S mod 65536` (R103, R118). -/
def synthWords (s : State) (f : Frame) : List Word :=
  (List.range s.total).map (fun i => BitVec.ofInt 16 (sampleValue s f i))

/-- What SYNTH and the Synth stage do for the frame `f` (R103, R133). -/
def synthFrame (f : Frame) (s : State) : State := fillBuffer (synthWords s f) s

/-- SYNTH once it may go: E_NOFRAME without a frame (R102), else all of BUF, BV and the response OK (R103). -/
def synthPhase (s : State) : State :=
  match s.frame with
  | none => raise .noFrame true s
  | some f => respond .ok (synthFrame f s)

/-- SYNTH (R103): E_RELEASED after SHUTDOWN, held while BUSY = 1. -/
def execSynth (s : State) : Host.Outcome State Fault Refusal :=
  .next (if s.dev = .released then raise .released true s
    else if s.busy then hold .synth s
    else synthPhase s)

/-- The words the phase accumulator makes, `n` of them from index `i` and phase `p` on: the hardware form of the carrier
generator (R110), one addition modulo FS for every index, on bits and off bits alike. -/
def accumulatorWords (s : State) (f : Frame) : Nat → Nat → Nat → List Word
  | 0, _, _ => []
  | n + 1, i, p =>
    BitVec.ofInt 16 (if f.getLsbD (bitIndex s.spb i) then polSign s.pol * sinq s.tol s.fs p else 0)
      :: accumulatorWords s f n (i + 1) (phaseNext s.fs p)

end Sys2Proof.Machine
end

