-- ==== Sys2Proof/Machine/Sequencer.lean ====
section
/-! DEFINITION. The control shell: TRANSMIT, the stages of a transaction, STARTREPEAT, SHUTDOWN, the tick and the held
command (R130 to R146). -/

namespace Sys2Proof.Machine

/-- The transaction phase of TRANSMIT: E_SETUP without a configured device, else the transaction begins (R130). A
transaction requires DEV = Ready (R131), so the test is for Ready (log 19). -/
def transmitPhase (k : Key) (s : State) : State :=
  if s.dev = .ready then beginTxn k .host s else raise .setup true s

/-- TRANSMIT k (R130): the arrival phase cancels at once; the transaction phase is held while BUSY = 1. -/
def execTransmit (k : Key) (s : State) : Host.Outcome State Fault Refusal :=
  .next (if s.dev = .released then raise .released true s
    else if s.busy then hold (.transmit k) (cancel s)
    else transmitPhase k (cancel s))

/-- STARTREPEAT after its Cancel: E_SETUP without a configured device, else Repeating(k), DUE, and the response OK (R140). -/
def startrepeatPhase (k : Key) (s : State) : State :=
  if s.dev = .ready then respond .ok { s with rpt := .repeating k, due := true } else raise .setup true s

/-- STARTREPEAT k (R140): it cancels, and it is never held. -/
def execStartrepeat (k : Key) (s : State) : Host.Outcome State Fault Refusal :=
  .next (if s.dev = .released then raise .released true s else startrepeatPhase k (cancel s))

/-- The transaction phase of SHUTDOWN: `release()` if the device is Ready, DEV becomes Released, the response is OK (R145). -/
def shutdownPhase (s : State) : State :=
  respond .ok { (if s.dev = .ready then logCall .release s else s) with dev := .released }

/-- SHUTDOWN (R145): the arrival phase cancels at once; the rest is held while BUSY = 1. -/
def execShutdown (s : State) : Host.Outcome State Fault Refusal :=
  .next (if s.dev = .released then raise .released true s
    else if s.busy then hold .shutdown (cancel s)
    else shutdownPhase (cancel s))

/-- What a held command does when BUSY = 0 (R136): its transaction phase. STARTREPEAT is never held; its case is its own
effect. -/
def resume : Instr → State → State
  | .encode k, s => encodePhase k s
  | .synth, s => synthPhase s
  | .setpol b, s => setpolPhase b s
  | .transmit k, s => transmitPhase k s
  | .startrepeat k, s => startrepeatPhase k s
  | .shutdown, s => shutdownPhase s

/-- The tick (R142): DUE is cleared and a transaction of RKEY begins, with no Cancel; nothing where it is not enabled. -/
def tick (s : State) : State :=
  match s.rpt with
  | .idle => s
  | .repeating k => if s.tickEnabled then beginTxn k .tick { s with due := false } else s

/-- The Encode stage (R132). -/
def encodeStage (t : Txn) (s : State) : State := goTo .synth t (encodeKey t.key s)

/-- The Synth stage (R133). FRAME holds a value after the Encode stage, so the fault is reached from no run. -/
def synthStage (t : Txn) (s : State) : Host.Outcome State Fault Refusal :=
  match s.frame with
  | none => .fault .noFrame
  | some f => .next (goTo .write t (synthFrame f s))

/-- The Write stage ends with the device's answer: the call is recorded with all TOTAL samples; on fail the transaction
aborts with E_WRITE (R134). BUF is full after the Synth stage, so the fault is reached from no run. -/
def writeStage (ok : Bool) (t : Txn) (s : State) : Host.Outcome State Fault Refusal :=
  if Memory.filled s.buf s.total then
    let s1 := logCall (.write (Memory.samples s.buf s.total) ok) s
    .next (if ok then goTo .play t s1 else endTxn .write t s1)
  else .fault .noSample

/-- The Play stage ends with the device's answer (R134). -/
def playStage (ok : Bool) (t : Txn) (s : State) : State :=
  if ok then goTo .wait t (logCall (.play ok) s) else endTxn .play t (logCall (.play ok) s)

/-- The Wait stage ends, by expiry or by interruption alike (R135); at any other time neither has an effect (R158, R159). -/
def endWait (s : State) : State :=
  match s.inflight with
  | some ⟨.wait, k, src⟩ => goTo .stop ⟨.wait, k, src⟩ s
  | _ => s

/-- The Stop stage ends with the device's answer (R137). -/
def stopStage (ok : Bool) (t : Txn) (s : State) : State :=
  if ok then goTo .reload t (logCall (.stop ok) s) else endTxn .stop t (logCall (.stop ok) s)

/-- The Reload stage ends with the device's answer, and with it the transaction: OK or E_RELOAD (R137). -/
def reloadStage (ok : Bool) (t : Txn) (s : State) : State :=
  endTxn (if ok then .ok else .reload) t (logCall (.reloadBuffer ok) s)

/-- The device answers the outstanding call; without one the answer cannot occur and nothing changes (R160). -/
def deviceAnswer (ok : Bool) (s : State) : Host.Outcome State Fault Refusal :=
  match s.inflight with
  | none => .next s
  | some t =>
    match t.stage with
    | .encode => .next s
    | .synth => .next s
    | .write => writeStage ok t s
    | .play => .next (playStage ok t s)
    | .wait => .next s
    | .stop => .next (stopStage ok t s)
    | .reload => .next (reloadStage ok t s)

/-- The control shell goes on: a stage that needs nothing from outside, else the held command once BUSY = 0, else an
enabled tick, else nothing (R131, R136, R142, R178). `Move.tick` lets the tick go before the held command (R161; log 18). -/
def shell (s : State) : Host.Outcome State Fault Refusal :=
  match s.inflight with
  | some t =>
    match t.stage with
    | .encode => .next (encodeStage t s)
    | .synth => synthStage t s
    | .write => .next s
    | .play => .next s
    | .wait => .next s
    | .stop => .next s
    | .reload => .next s
  | none =>
    match s.held with
    | some i => .next (resume i { s with held := none })
    | none => .next (tick s)

/-- The repeat timer expires: DUE is set while RPT = 1; while RPT = 0 the timer does not run (R141, R157). -/
def repeatExpiry (s : State) : State := if s.repeats then { s with due := true } else s

end Sys2Proof.Machine
end

