-- ==== Sys2Proof/Machine/Dispatch.lean ====
section
/-! DEFINITION. The one dispatch from a command to its meaning: one arm per constructor of Instr. -/

namespace Sys2Proof.Machine

def exec (i : Instr) (s : State) : Host.Outcome State Fault Refusal :=
  match i with
  | .encode k => Sys2Proof.Machine.execEncode k s
  | .synth => Sys2Proof.Machine.execSynth s
  | .setpol b => Sys2Proof.Machine.execSetpol b s
  | .transmit k => Sys2Proof.Machine.execTransmit k s
  | .startrepeat k => Sys2Proof.Machine.execStartrepeat k s
  | .shutdown => Sys2Proof.Machine.execShutdown s

end Sys2Proof.Machine
end

