-- ==== Sys2Proof/Machine/Events.lean ====
section
/-! DEFINITION. The moves of the agents (R15, R156): a command word on the command port, the block's own moves, the timers,
the device, reset. -/

namespace Sys2Proof.Machine

/-- A word that is no command: E_RELEASED after SHUTDOWN (R78), else E_ILLEGAL; nothing but ERR and the response changes,
and it is never held (R77). -/
def illegalWord (s : State) : State :=
  if s.dev = .released then raise .released true s else raise .illegal true s

/-- The host gives a command word (R70). The test for Released comes first in R162; each command makes it first, and
`illegalWord` too, so decoding before it changes no outcome (log 21). While a command waits for its response the host has no
such move (R188). -/
def hostMove (w : Word) (s : State) : Host.Outcome State Fault Refusal :=
  if s.hostWaits then .refused .commandOverlap
  else
    match decode w with
    | .ok i => exec i s
    | .error _ => .next (illegalWord s)

/-- Reset, at any time, over everything else (R180); the rules speak of no sample rate outside `Startup.admitted` (U2). -/
def resetMove (r : Startup) (s : State) : Host.Outcome State Fault Refusal :=
  if r.admitted then .next (startUp s.tol s.moves r) else .refused .sampleRateOutsideRules

/-- One move of one agent. -/
def act (m : Move) (s : State) : Host.Outcome State Fault Refusal :=
  match m with
  | .host w => hostMove w s
  | .shell => shell s
  | .tick => .next (tick s)
  | .repeatExpiry => .next (repeatExpiry s)
  | .settleExpiry => .next (endWait s)
  | .settleInterrupt => .next (endWait s)
  | .answer ok => deviceAnswer ok s
  | .reset r => resetMove r s

/-- The next move: the first of `moves`, which it takes off the list; with none left the outside does nothing and the
control shell goes on alone (log 2). -/
def advance (s : State) : Host.Outcome State Fault Refusal :=
  match s.moves with
  | [] => shell s
  | m :: ms => act m { s with moves := ms }

/-- The host gives the word `w` as its next move. -/
def giveWord (w : Word) (s : State) : State := { s with moves := .host w :: s.moves }

end Sys2Proof.Machine
end

