-- ==== Sys2Proof/Machine/Step.lean ====
section
/-! DEFINITION. One step of the machine, and where its next command comes from. -/

namespace Sys2Proof.Machine

/-- One step: one move of one agent (R15). -/
def step (s : State) : Host.Outcome State Fault Refusal := advance s

/-- `s` with the command of the low `nbits` bits of `w` as the host's next move: OOKMOD fetches nothing, a command word comes
whole on the command port (R28, R70; log 1). -/
def State.withFetchWord (s : State) (nbits w : Nat) : State := giveWord (BitVec.ofNat 16 (w % 2 ^ nbits)) s

end Sys2Proof.Machine
end

