-- ==== Sys2Proof/Machine/Assembly.lean ====
section
/-! DEFINITION. The text form of commands on the host's side (R79) and the two pseudo-operations the host expands (R80, R81).
The block itself takes command words only. -/

namespace Sys2Proof.Machine

/-- One line of text: nothing, a command, or a pseudo-operation. -/
inductive AsmLine where
  | blank
  | command (i : Instr)
  /-- MODULATE k (R80). -/
  | modulate (k : Key)
  /-- TOGGLEPOL (R81). -/
  | togglepol
  deriving DecidableEq, Repr

/-- Why a line of text is no command. -/
inductive AsmError where
  /-- The first word is no mnemonic of R72, R80 or R81. -/
  | unknownMnemonic
  /-- The operand is missing, is no number, does not fit, or stands where none is allowed (R73, R74). -/
  | badOperand
  deriving DecidableEq, Repr

/-- The mnemonics in capitals (R72, R79). -/
def mnemonicText : List (List Char × Mnemonic) :=
  [ (['E', 'N', 'C', 'O', 'D', 'E'], .encode),
    (['S', 'Y', 'N', 'T', 'H'], .synth),
    (['S', 'E', 'T', 'P', 'O', 'L'], .setpol),
    (['T', 'R', 'A', 'N', 'S', 'M', 'I', 'T'], .transmit),
    (['S', 'T', 'A', 'R', 'T', 'R', 'E', 'P', 'E', 'A', 'T'], .startrepeat),
    (['S', 'H', 'U', 'T', 'D', 'O', 'W', 'N'], .shutdown) ]

/-- The pseudo-operation MODULATE (R80). -/
def modulateText : List Char := ['M', 'O', 'D', 'U', 'L', 'A', 'T', 'E']

/-- The pseudo-operation TOGGLEPOL (R81). -/
def togglepolText : List Char := ['T', 'O', 'G', 'G', 'L', 'E', 'P', 'O', 'L']

/-- The value of a digit, hexadecimal in either case (log 24). -/
def digitValue (c : Char) : Option Nat :=
  let n := c.toNat
  if 48 ≤ n ∧ n ≤ 57 then some (n - 48)
  else if 65 ≤ n ∧ n ≤ 70 then some (n - 55)
  else if 97 ≤ n ∧ n ≤ 102 then some (n - 87)
  else none

/-- The digits after the value `acc`, to the base `base`. -/
def readDigits (base : Nat) : Nat → List Char → Option Nat
  | acc, [] => some acc
  | acc, c :: cs =>
    match digitValue c with
    | none => none
    | some d => if d < base then readDigits base (acc * base + d) cs else none

/-- A decimal number, or a hexadecimal number with `0x` (R79). -/
def readNumber : List Char → Option Nat
  | [] => none
  | ['0', 'x'] => none
  | '0' :: 'x' :: cs => readDigits 16 0 cs
  | cs => readDigits 10 0 cs

/-- The words of a line, split at spaces and tabs; `cur` is the word being read, last character first. -/
def splitWords : List Char → List Char → List (List Char)
  | cur, [] => if cur = [] then [] else [cur.reverse]
  | cur, c :: cs =>
    if c = ' ' ∨ c = '\t' then
      if cur = [] then splitWords [] cs else cur.reverse :: splitWords [] cs
    else splitWords (c :: cur) cs

/-- A command from its mnemonic and the words after it. -/
def assembleCommand (m : Mnemonic) (args : List (List Char)) : Except AsmError AsmLine :=
  let line : Option Line :=
    match args with
    | [] => some ⟨m, none⟩
    | [a] => (readNumber a).map (fun n => ⟨m, some n⟩)
    | _ :: _ :: _ => none
  match line.bind Line.instr with
  | some i => .ok (.command i)
  | none => .error .badOperand

/-- One line of text, a comment cut off at `;` (R79). -/
def assemble (text : List Char) : Except AsmError AsmLine :=
  match splitWords [] (text.takeWhile (fun c => c ≠ ';')) with
  | [] => .ok .blank
  | m :: args =>
    if m = modulateText then
      match assembleCommand .encode args with
      | .ok (.command (.encode k)) => .ok (.modulate k)
      | _ => .error .badOperand
    else if m = togglepolText then
      if args = [] then .ok .togglepol else .error .badOperand
    else
      match mnemonicText.lookup m with
      | some c => assembleCommand c args
      | none => .error .unknownMnemonic

/-- The commands the host gives for a line: MODULATE k is ENCODE k then SYNTH (R80), TOGGLEPOL reads CR4 and sets the other
polarity (R81). -/
def expand (s : State) : AsmLine → List Instr
  | .blank => []
  | .command i => [i]
  | .modulate k => [.encode k, .synth]
  | .togglepol => [.setpol (BitVec.ofNat 1 (1 - (s.readCR 4).toNat))]

end Sys2Proof.Machine
end

