-- ==== Sys2Proof/Safety.lean ====
section
/-! DEFINITION. What counts as a safe run: the invariants of the block, one structure for each kind of state, the shape of the
device trace, and the exact reference of the sine unit over the reals, which statements use. -/

namespace Sys2Proof.Machine

/-- The sample memory: canonical, inside BUF, full exactly when BV says so, and never holding -32768 (R23, R33, R50, R116);
SPB and TOTAL as R10 relates them. -/
structure State.BufferInv (s : State) : Prop where
  sorted : Memory.wf s.buf
  inside : ∀ c ∈ s.buf, c.1 < s.total
  full : s.bv = true → Memory.filled s.buf s.total = true
  empty : s.bv = false → s.buf = []
  range : ∀ c ∈ s.buf, c.2 ≠ 0x8000#16
  counts : 1 ≤ s.spb ∧ s.total = Config.NBITS * s.spb

/-- FV marks that KEY and FRAME hold the result of one encode (R32). -/
def State.EncodeInv (s : State) : Prop := s.frame = s.key.map frameOf

/-- FS is a rate the rules speak of (R8, R34). -/
def State.RateInv (s : State) : Prop := 2049 ≤ s.fs ∧ s.fs < 2 ^ 32

/-- A command that cancels (R143). -/
def cancelling : Instr → Bool
  | .encode _ => false
  | .synth => false
  | .setpol _ => false
  | .transmit _ => true
  | .startrepeat _ => true
  | .shutdown => true

/-- The control shell (R24 to R26, R36, R42, R136): a due activation belongs to a schedule, a schedule and a transaction to a
ready device, a held command waits for a tick-driven transaction, and a host command that cancels has done so. -/
structure State.ControlInv (s : State) : Prop where
  due_repeats : s.due = true → s.repeats = true
  repeats_ready : s.repeats = true → s.dev = .ready
  busy_ready : s.busy = true → s.dev = .ready
  held_ready : s.held ≠ none → s.dev = .ready
  configured : s.dev ≠ .unconfigured
  failed_recorded : s.dev = .failed → s.err ≠ .ok
  held_behind_tick : s.held ≠ none → ∀ t, s.inflight = some t → t.src = .tick
  held_cancelled : ∀ i, s.held = some i → cancelling i = true → s.repeats = false
  held_no_startrepeat : ∀ k, s.held ≠ some (.startrepeat k)
  host_cancelled : ∀ t, s.inflight = some t → t.src = .host → s.repeats = false

/-- The transaction in flight works on its own key: KEY is TKEY after the Encode stage, and at the Write stage BUF holds the
samples of TKEY's frame with the POL in force (R59, R131, R138). -/
structure State.TxnInv (s : State) : Prop where
  key : ∀ t, s.inflight = some t → t.stage ≠ .encode → s.key = some t.key ∧ s.frame = some (frameOf t.key)
  buffer : ∀ t, s.inflight = some t → t.stage = .write → ∀ i < s.total,
    Memory.read s.buf i = some (BitVec.ofInt 16 (sampleValue s (frameOf t.key) i))

/-- Where a device trace stands. -/
inductive TracePhase where
  /-- No call yet. -/
  | start
  /-- Configured, between transactions or before a Write. -/
  | between
  /-- A Write answered ok. -/
  | written
  /-- A Play answered ok. -/
  | playing
  /-- A Stop answered ok. -/
  | stopped
  /-- The configure call failed: no call may follow. -/
  | lost
  /-- Released: no call may follow. -/
  | gone
  /-- Calls out of order. -/
  | broken
  deriving DecidableEq, Repr

/-- The order of the device calls: configure first, then whole groups write, play, stop, reloadBuffer, each cut short only by
a fail answer, and at most one release between groups (R60, R131, R138, R145, R171). -/
def TracePhase.next : TracePhase → DevCall → TracePhase
  | .start, .configure _ _ _ _ ok => if ok then .between else .lost
  | .between, .write _ ok => if ok then .written else .between
  | .between, .release => .gone
  | .written, .play ok => if ok then .playing else .between
  | .playing, .stop ok => if ok then .stopped else .between
  | .stopped, .reloadBuffer _ => .between
  | _, _ => .broken

/-- Where DEVTRACE stands after all its calls. -/
def tracePhase (calls : List DevCall) : TracePhase := calls.foldl TracePhase.next .start

/-- Where the trace must stand for the stage that runs next. -/
def stagePhase : Option Txn → TracePhase
  | none => .between
  | some t =>
    match t.stage with
    | .encode => .between
    | .synth => .between
    | .write => .between
    | .play => .written
    | .wait => .playing
    | .stop => .playing
    | .reload => .stopped

/-- DEVTRACE and DEV agree with the stage in flight, so no two transactions interleave and `release` comes at most once
(R138, R145). -/
structure State.TraceInv (s : State) : Prop where
  ready : s.dev = .ready → tracePhase s.devtrace = stagePhase s.inflight
  failed : s.dev = .failed → tracePhase s.devtrace = .start ∨ tracePhase s.devtrace = .lost
  released : s.dev = .released →
    tracePhase s.devtrace = .gone ∨ tracePhase s.devtrace = .start ∨ tracePhase s.devtrace = .lost

/-- The invariant of the block. -/
structure State.Inv (s : State) : Prop where
  buffer : s.BufferInv
  encode : s.EncodeInv
  rate : s.RateInv
  control : s.ControlInv
  txn : s.TxnInv
  trace : s.TraceInv

/-- The next move is not a reset. -/
def State.noReset (s : State) : Prop := ∀ r, s.moves.head? ≠ some (.reset r)

/-- Reading the buffer back, bit `j` set where some sample of segment `j` is not zero (R120). -/
def readBack (spb : Nat) (m : Memory) : List Bool :=
  (List.range Config.NBITS).map (fun j =>
    (List.range spb).any (fun i => (Memory.read m (j * spb + i)).any (fun w => w != 0#16)))

/-- The device calls of one transaction, given its samples and the device's answers to write, play, stop and reloadBuffer:
the first fail answer is the last call (R131, R134, R137, R163). -/
def transactionCalls (samples : List Int) (w p st re : Bool) : List DevCall :=
  .write samples w ::
    (if w then .play p :: (if p then .stop st :: (if st then [.reloadBuffer re] else []) else []) else [])

/-- The code a transaction ends with, given the same answers (R131, R151). -/
def transactionCode (w p st re : Bool) : Code :=
  if w then (if p then (if st then (if re then .ok else .reload) else .stop) else .play) else .write

/-- The moves that bring a transaction from its Encode stage to its end: two stages of the shell, two answers, the end of the
settle wait, two answers. After an abort the answers left over find no call outstanding. -/
def transactionMoves (w p st re : Bool) : List Move :=
  [.shell, .shell, .answer w, .answer p, .settleExpiry, .answer st, .answer re]

/-- The samples of the key `k` with the configuration and the polarity of `s` (R103, R123). -/
def keySamples (s : State) (k : Key) : List Int := (List.range s.total).map (sampleValue s (frameOf k))

/-- RHAZ, rounding a real to the nearest integer with ties away from zero (R111). -/
noncomputable def rhaz (x : ℝ) : ℤ := if 0 ≤ x then ⌊x + 1 / 2⌋ else -⌊-x + 1 / 2⌋

/-- The reference of R112 over the reals: `RHAZ(32767 * sin(2 * pi * p / FS))`. -/
noncomputable def exactSine (fs p : Nat) : ℤ :=
  rhaz (Config.AMAX * Real.sin (2 * Real.pi * p / fs))

end Sys2Proof.Machine
end

