-- ==== Sys2Proof/Certificates/Slice0/Obligations.lean ====
section
/-! DEFINITION. What is stated about the machine, for the provers. Every statement about a command or a step ranges over all
states, also those no run reaches, unless it names an invariant of Safety.lean as a premise. -/

open Sys2Proof Sys2Proof.Machine

/-! ## Command words -/

/-- Decoding the word of a command gives the command back, with every operand at every value (R71 to R74, R76). -/
def Obligations.DecodeInvertsEncode : Prop := ∀ i : Instr, decode (encode i) = .ok i

/-- The decoder accepts a word exactly when it matches a pattern of R76, the patterns are disjoint, and a word it accepts is the
word of the command it gives. -/
def Obligations.DecodeAcceptsExactlyTheTable : Prop :=
  ∀ w : Word,
    ((∃ i, decode w = .ok i) ↔ legalWord w = true) ∧
    (∀ i, decode w = .ok i → encode i = w) ∧
    (∀ p ∈ opcodeTable, ∀ q ∈ opcodeTable, p.fits w = true → q.fits w = true → p = q)

/-- The order in which R76 tests a word: z first, then op, then the operand bits that must be zero. -/
def Obligations.DecodeTestsInOrder : Prop :=
  ∀ w : Word,
    (zField w ≠ 0#4 → decode w = .error .reservedBits) ∧
    (zField w = 0#4 → opField w = 0x0#4 ∨ 0x7#4 ≤ opField w → decode w = .error .unusedOperation) ∧
    (zField w = 0#4 → opField w = 0x2#4 ∨ opField w = 0x6#4 → immField w ≠ 0#8 → decode w = .error .operandNotAllowed) ∧
    (zField w = 0#4 → opField w = 0x3#4 → 2#8 ≤ immField w → decode w = .error .operandNotAllowed)

/-- Words of the table in 95_test_vectors.md section 2.2. -/
def Obligations.DecodeOfTheSpecsWords : Prop :=
  decode 0x10FF#16 = .ok (.encode 0xFF#8) ∧ decode 0x2000#16 = .ok .synth ∧
  decode 0x3000#16 = .ok (.setpol 0#1) ∧ decode 0x3001#16 = .ok (.setpol 1#1) ∧
  decode 0x4031#16 = .ok (.transmit 0x31#8) ∧ decode 0x5031#16 = .ok (.startrepeat 0x31#8) ∧
  decode 0x6000#16 = .ok .shutdown ∧ decode 0x4F31#16 = .error .reservedBits ∧
  decode 0x30FF#16 = .error .operandNotAllowed ∧ decode 0x6001#16 = .error .operandNotAllowed ∧
  decode 0x0031#16 = .error .unusedOperation ∧ decode 0x8031#16 = .error .unusedOperation

/-! ## The step -/

/-- When the host's next move is a word that decodes to a command, and no earlier command waits for its response, the step takes
the move off the list and runs the command; there is no program counter to move (R28, R70). -/
def Obligations.StepRunsTheDecodedCommand : Prop :=
  ∀ (s : State) (w : Word) (ms : List Move) (i : Instr),
    s.moves = .host w :: ms → s.hostWaits = false → decode w = .ok i →
    step s = exec i { s with moves := ms }

/-- An illegal word is answered E_ILLEGAL, recorded if ERR was 0, and changes nothing else; it is not held while BUSY = 1
(R77). -/
def Obligations.IllegalWordIsOnlyAnswered : Prop :=
  ∀ (s : State) (w : Word) (ms : List Move),
    s.moves = .host w :: ms → s.hostWaits = false → s.dev ≠ .released → legalWord w = false →
    step s = .next { s with
      moves := ms
      err := if s.err = .ok then .illegal else s.err
      responses := s.responses ++ [.illegal] }

/-- After SHUTDOWN every word, legal or not, is answered E_RELEASED and changes nothing but ERR, and only reset leaves this
condition (R78). -/
def Obligations.ReleasedAnswersEveryWord : Prop :=
  (∀ (s : State) (w : Word) (ms : List Move),
    s.moves = .host w :: ms → s.hostWaits = false → s.dev = .released →
    step s = .next { s with
      moves := ms
      err := if s.err = .ok then .released else s.err
      responses := s.responses ++ [.released] }) ∧
  (∀ s t : State, s.dev = .released → s.noReset → step s = .next t → t.dev = .released)

/-- A step refuses exactly two moves: a word the host gives before the response to the previous one (R188), and a reset with a
sample rate the rules do not speak of (R181). -/
def Obligations.StepRefusesOnlyOverlapAndRate : Prop :=
  (∀ (s : State) (w : Word) (ms : List Move),
    s.moves = .host w :: ms → s.hostWaits = true → step s = .refused .commandOverlap) ∧
  (∀ (s : State) (r : Startup) (ms : List Move),
    s.moves = .reset r :: ms → r.fs < 2049 ∨ 2 ^ 32 ≤ r.fs → step s = .refused .sampleRateOutsideRules) ∧
  (∀ (s : State) (e : Refusal), step s = .refused e →
    (e = .commandOverlap ∧ s.hostWaits = true ∧ ∃ w, s.moves.head? = some (.host w)) ∨
    (e = .sampleRateOutsideRules ∧ ∃ r : Startup, (r.fs < 2049 ∨ 2 ^ 32 ≤ r.fs) ∧ s.moves.head? = some (.reset r)))

/-! ## ENCODE and the frame -/

/-- ENCODE k (R94): KEY, FRAME with FV, the response OK, nothing else; FRAME as the number the rule gives, `p` the XOR of the
bits of k; E_RELEASED when DEV = Released; held while BUSY = 1. -/
def Obligations.EncodeLoadsKeyAndFrame : Prop :=
  ∀ (k : Key) (s : State),
    (s.dev ≠ .released → s.busy = false → ∃ f : Frame,
      exec (.encode k) s = .next { s with key := some k, frame := some f, responses := s.responses ++ [.ok] } ∧
      f.toNat = 1 + 2 * (255 - k.toNat) + 512 * (1 - (((List.range 8).filter (fun j => k.getLsbD j)).length % 2))) ∧
    (s.dev ≠ .released → s.busy = true → exec (.encode k) s = .next { s with held := some (.encode k) }) ∧
    (s.dev = .released → exec (.encode k) s = .next { s with
      err := if s.err = .ok then .released else s.err
      responses := s.responses ++ [.released] })

/-- The layout of the frame, bit by bit (R91). -/
def Obligations.FrameLayout : Prop :=
  ∀ k : Key,
    (frameOf k).getLsbD 0 = true ∧
    (∀ j < 8, (frameOf k).getLsbD (j + 1) = !(k.getLsbD j)) ∧
    (frameOf k).getLsbD 9 = !((parity k).getLsbD 0) ∧
    (frameOf k).getLsbD 10 = false

/-- The XOR fold gives the XOR of the eight key bits, which is the number of ones modulo 2; the complemented bits have the same
parity, and the frame carries the complement of it (R92). -/
def Obligations.ParityIsTheXorOfTheBits : Prop :=
  ∀ k : Key,
    (parity k).getLsbD 0 = (List.range 8).foldl (fun b j => b ^^ k.getLsbD j) false ∧
    (parity k).toNat = ((List.range 8).filter (fun j => k.getLsbD j)).length % 2 ∧
    parity (~~~ k) = parity k ∧
    (frameOf k).getLsbD 9 = !((parity k).getLsbD 0)

/-- Two keys never share a frame, and the nine bits after the start bit hold an odd number of ones (R95 e, f, g). -/
def Obligations.FramesAreInjectiveAndOdd : Prop :=
  (∀ k l : Key, frameOf k = frameOf l → k = l) ∧
  (∀ k : Key, ((List.range' 1 9).filter (fun j => (frameOf k).getLsbD j)).length % 2 = 1) ∧
  (∀ k : Key, 2 ≤ ((List.range 11).filter (fun j => (frameOf k).getLsbD j)).length ∧
    ((List.range 11).filter (fun j => (frameOf k).getLsbD j)).length ≤ 10)

/-! ## SETPOL and SYNTH -/

/-- SETPOL b (R101): POL and the response OK, nothing else; E_RELEASED when DEV = Released; held while BUSY = 1. -/
def Obligations.SetpolSetsThePolarity : Prop :=
  ∀ (b : Polarity) (s : State),
    (s.dev ≠ .released → s.busy = false →
      exec (.setpol b) s = .next { s with pol := b, responses := s.responses ++ [.ok] }) ∧
    (s.dev ≠ .released → s.busy = true → exec (.setpol b) s = .next { s with held := some (.setpol b) }) ∧
    (s.dev = .released → exec (.setpol b) s = .next { s with
      err := if s.err = .ok then .released else s.err
      responses := s.responses ++ [.released] })

/-- SYNTH where it writes no sample: without a frame it raises E_NOFRAME and changes no other state (R102); it is held while
BUSY = 1 (R136); after SHUTDOWN it answers E_RELEASED (R78). -/
def Obligations.SynthWithoutAFrame : Prop :=
  ∀ s : State,
    (s.dev ≠ .released → s.busy = false → s.fv = false → exec .synth s = .next { s with
      err := if s.err = .ok then .noFrame else s.err
      responses := s.responses ++ [.noFrame] }) ∧
    (s.dev ≠ .released → s.busy = true → exec .synth s = .next { s with held := some .synth }) ∧
    (s.dev = .released → exec .synth s = .next { s with
      err := if s.err = .ok then .released else s.err
      responses := s.responses ++ [.released] })

/-- SYNTH with a frame (R103): all TOTAL samples, each the carrier times the polarity where its frame bit is 1 and 0 elsewhere,
readable as that integer; BV and the response OK; no other word of the memory and no other state changes. -/
def Obligations.SynthWritesEverySample : Prop :=
  ∀ (s : State) (f : Frame), s.dev ≠ .released → s.busy = false → s.frame = some f →
    ∃ t : State, exec .synth s = .next t ∧
      (∀ i < s.total, t.sampleRead i = .ok
        (if f.getLsbD (i / s.spb % 11) then (1 - 2 * (s.pol.toNat : Int)) * sinq s.tol s.fs (i * 16386 % s.fs) else 0)) ∧
      (∀ i, s.total ≤ i → Memory.read t.buf i = Memory.read s.buf i) ∧
      t = { s with buf := t.buf, bv := true, responses := s.responses ++ [.ok] }

/-- The sample indices of frame bit j are exactly the SPB indices of its segment, and every index of BUF is in one (R104, R105,
R107). -/
def Obligations.SegmentsOwnEqualSamples : Prop :=
  ∀ spb i j : Nat, 1 ≤ spb → j < 11 →
    (j * spb ≤ i ∧ i < (j + 1) * spb ↔ i < 11 * spb ∧ bitIndex spb i = j)

/-- After SYNTH with POL = 1 every sample is the negative of the sample after SYNTH with POL = 0, the rest of the state alike
(R119). -/
def Obligations.PolarityNegatesEverySample : Prop :=
  ∀ (s : State) (f : Frame), s.dev ≠ .released → s.busy = false → s.frame = some f →
    ∃ t u : State, exec .synth { s with pol := 0#1 } = .next t ∧ exec .synth { s with pol := 1#1 } = .next u ∧
      ∀ i < s.total, ∃ v : Int, t.sampleRead i = .ok v ∧ u.sampleRead i = .ok (-v)

/-- Every sample lies in -32767 .. 32767, so its word is never the pattern of -32768 and reads back as the sample (R116,
R118). -/
def Obligations.SamplesStayInRange : Prop :=
  ∀ (s : State) (f : Frame) (i : Nat),
    -32767 ≤ sampleValue s f i ∧ sampleValue s f i ≤ 32767 ∧
    (BitVec.ofInt 16 (sampleValue s f i)).toInt = sampleValue s f i ∧
    BitVec.ofInt 16 (sampleValue s f i) ≠ 0x8000#16

/-- Two frames give the same sample wherever they agree, and 0 wherever the bit is 0, whatever the key (R106, R123). -/
def Obligations.SamplesFollowTheFrameBit : Prop :=
  ∀ (s : State) (f g : Frame) (i : Nat),
    (f.getLsbD (bitIndex s.spb i) = false → sampleValue s f i = 0) ∧
    (f.getLsbD (bitIndex s.spb i) = true → sampleValue s f i = polSign s.pol * sinq s.tol s.fs (phaseAt s.fs i)) ∧
    (f.getLsbD (bitIndex s.spb i) = g.getLsbD (bitIndex s.spb i) → sampleValue s f i = sampleValue s g i)

/-- The phase accumulator, which adds 16386 modulo FS at every index, makes the very words SYNTH stores (R110). -/
def Obligations.PhaseAccumulatorMakesTheSamples : Prop :=
  ∀ (s : State) (f : Frame), accumulatorWords s f s.total 0 0 = synthWords s f

/-- The phases and products of the mapper stay inside the widths R108 gives. -/
def Obligations.PhaseProductsAreBounded : Prop :=
  ∀ fs i : Nat, 1 ≤ fs → i < Config.NBITS * Config.samplesPerBit fs →
    i * Config.FC < 88 * fs ∧ phaseAt fs i < fs ∧ phaseAt fs i + Config.FC ≤ fs + 16385

/-! ## The sine unit -/

/-- The five properties of the sine unit, whatever the free value is, for every tolerance and rate (R113 S1 to S4; S5 is the
type of `sinq`); with tolerance 0 it is the reference. -/
def Obligations.SineUnitKeepsItsProperties : Prop :=
  ∀ tol fs p : Nat, 1 ≤ fs → p < fs →
    |sinq tol fs p - sinRef fs p| ≤ tol ∧
    sinq tol fs 0 = 0 ∧ (2 ∣ fs → sinq tol fs (fs / 2) = 0) ∧
    sinq tol fs ((fs - p) % fs) = - sinq tol fs p ∧
    -32767 ≤ sinq tol fs p ∧ sinq tol fs p ≤ 32767 ∧
    sinq 0 fs p = sinRef fs p

/-- The exact lookup table of N = FS / gcd(FS, FC) entries gives the reference at every sample index, and its second half is
the negated first (R114). -/
def Obligations.LookupTableIsExact : Prop :=
  ∀ fs : Nat, 1 ≤ fs →
    (∀ i, tableEntry (tableSize fs) (tableAddress fs i) = sinRef fs (phaseAt fs i)) ∧
    (∀ q < tableSize fs, tableEntry (tableSize fs) ((tableSize fs - q) % tableSize fs) = - tableEntry (tableSize fs) q)

/-- The computed reference is exactly `RHAZ(32767 * sin(2 * pi * p / FS))` over the reals, at every rate and phase (R112). -/
def Obligations.ReferenceIsTheRoundedSine : Prop :=
  ∀ fs p : Nat, 1 ≤ fs → p < fs → sinRef fs p = exactSine fs p

/-- With tolerance 0 every sample of an on bit is the exact value of R112, at every rate, for every frame and either polarity. -/
def Obligations.SamplesAreExactAtEveryRate : Prop :=
  ∀ (s : State) (f : Frame) (i : Nat), s.tol = 0 → 1 ≤ s.fs → i < 11 * s.spb → f.getLsbD (i / s.spb) = true →
    sampleValue s f i = rhaz ((1 - 2 * (s.pol.toNat : ℝ)) * Real.sin (2 * Real.pi * i * 16386 / s.fs) * 32767)

/-- The end-to-end property of the source at the two rates of the spec's vectors: after ENCODE k and SYNTH, the segments read
back as silent or not give the frame of k, with either polarity (R120, R80). -/
def Obligations.BufferReadsBackAsTheFrame : Prop :=
  ∀ (s : State) (k : Key), s.dev ≠ .released → s.busy = false → s.tol = 0 → s.fs = 44100 ∨ s.fs = 48000 →
    s.spb = Config.samplesPerBit s.fs → s.total = 11 * s.spb →
    ∃ t u : State, exec (.encode k) s = .next t ∧ exec .synth t = .next u ∧
      readBack u.spb u.buf = (List.range 11).map (fun j => (frameOf k).getLsbD j)

/-! ## Configuration arithmetic -/

/-- SPB is the floor of PERIODS * FS / FC, which is the floor of PERIODS * 2 * M, and at least 1 for every admitted rate (R9,
R10). -/
def Obligations.SamplesPerBitIsTheFloor : Prop :=
  ∀ fs : Nat,
    (Config.samplesPerBit fs : ℤ) = ⌊(8 : ℚ) * fs / 16386⌋ ∧
    (Config.samplesPerBit fs : ℤ) = ⌊8 * 2 * Config.multiplier fs⌋ ∧
    (2049 ≤ fs → 1 ≤ Config.samplesPerBit fs) ∧
    Config.samplesPerBit 44100 = 21 ∧ Config.samplesPerBit 48000 = 23

/-- The buffer of any rate lasts at most 88 / 16386 s, less than the settle wait (R195). -/
def Obligations.BufferFitsTheSettleWait : Prop :=
  ∀ fs : Nat, 1 ≤ fs →
    Config.NBITS * Config.samplesPerBit fs * 16386 ≤ 88 * fs ∧
    Config.NBITS * Config.samplesPerBit fs * 1000 < Config.SETTLE_MS * fs

/-! ## TRANSMIT and the transaction -/

/-- TRANSMIT k at its arrival (R130): Cancel at once unless Released; then E_RELEASED, the hold, E_SETUP, or the transaction of k
begins. -/
def Obligations.TransmitArrives : Prop :=
  ∀ (k : Key) (s : State),
    (s.dev = .ready → s.busy = false → exec (.transmit k) s = .next { s with
      rpt := .idle
      due := false
      inflight := some ⟨.encode, k, .host⟩ }) ∧
    (s.dev ≠ .released → s.busy = true → exec (.transmit k) s = .next { s with
      rpt := .idle
      due := false
      held := some (.transmit k) }) ∧
    (s.dev = .failed → s.busy = false → exec (.transmit k) s = .next { s with
      rpt := .idle
      due := false
      err := if s.err = .ok then .setup else s.err
      responses := s.responses ++ [.setup] }) ∧
    (s.dev = .released → exec (.transmit k) s = .next { s with
      err := if s.err = .ok then .released else s.err
      responses := s.responses ++ [.released] })

/-- One whole TRANSMIT (R130 to R137), for every answer the device gives: after the seven stages KEY and FRAME are those of k,
BUF holds its samples, the device was given exactly them, the first fail answer ended the transaction and is the response, and
the schedule is gone; nothing else changed. The order of moves is the model's list (log 2), in which answers left over after an
abort change nothing (log 12). -/
def Obligations.TransmitSendsOneFrame : Prop :=
  ∀ (k : Key) (s : State) (w p st re : Bool) (ms : List Move),
    s.dev = .ready → s.busy = false → s.held = none →
    s.moves = .host (encode (.transmit k)) :: (transactionMoves w p st re ++ ms) →
    ∃ t u : State, exec (.transmit k) { s with moves := transactionMoves w p st re ++ ms } = .next t ∧
      Host.Core.run Sys2Proof.core 7 t = .next u ∧ Host.Core.run Sys2Proof.core 8 s = .next u ∧
      (∀ i < s.total, u.sampleRead i = .ok (sampleValue s (frameOf k) i)) ∧
      (∀ i, s.total ≤ i → Memory.read u.buf i = Memory.read s.buf i) ∧
      u = { s with
        key := some k
        frame := some (frameOf k)
        buf := u.buf
        bv := true
        rpt := .idle
        due := false
        err := if s.err = .ok then transactionCode w p st re else s.err
        devtrace := s.devtrace ++ transactionCalls (keySamples s k) w p st re
        responses := s.responses ++ [transactionCode w p st re]
        moves := ms }

/-- One whole tick-driven transaction (R139, R142), for every answer the device gives: it sends RKEY, keeps the schedule also on
an abort, and its error goes to ERR alone, since no command waits. The order of moves is the model's list (log 2), in which
answers left over after an abort change nothing (log 12). -/
def Obligations.TickSendsTheRepeatedKey : Prop :=
  ∀ (k : Key) (s : State) (w p st re : Bool) (ms : List Move),
    s.dev = .ready → s.busy = false → s.rpt = .repeating k → s.due = true →
    s.moves = .tick :: (transactionMoves w p st re ++ ms) →
    ∃ u : State, Host.Core.run Sys2Proof.core 8 s = .next u ∧
      (∀ i < s.total, u.sampleRead i = .ok (sampleValue s (frameOf k) i)) ∧
      (∀ i, s.total ≤ i → Memory.read u.buf i = Memory.read s.buf i) ∧
      u = { s with
        key := some k
        frame := some (frameOf k)
        buf := u.buf
        bv := true
        due := false
        err := if s.err = .ok then transactionCode w p st re else s.err
        devtrace := s.devtrace ++ transactionCalls (keySamples s k) w p st re
        moves := ms }

/-- MODULATE is the datapath of TRANSMIT (R80): after ENCODE k and SYNTH the readable samples are those a transaction of k
hands to the device, and no device call was made. -/
def Obligations.ModulateLeavesTheTransmittedSamples : Prop :=
  ∀ (k : Key) (s : State), s.dev ≠ .released → s.busy = false →
    ∃ t u : State, exec (.encode k) s = .next t ∧ exec .synth t = .next u ∧
      expand s (.modulate k) = [.encode k, .synth] ∧
      Memory.samples u.buf s.total = keySamples s k ∧ u.devtrace = s.devtrace

/-- While a transaction is in flight no step but a reset starts another: it stays with its key and source in the same stage or
the next, or ends (R131, R138). -/
def Obligations.OneTransactionAtATime : Prop :=
  ∀ (s t : State) (x : Txn), s.inflight = some x → s.noReset → step s = .next t →
    t.inflight = none ∨ ∃ g : Stage, t.inflight = some { x with stage := g } ∧
      (g = x.stage ∨ (x.stage, g) ∈ [(Stage.encode, Stage.synth), (Stage.synth, Stage.write), (Stage.write, Stage.play),
        (Stage.play, Stage.wait), (Stage.wait, Stage.stop), (Stage.stop, Stage.reload)])

/-- The two ways the settle wait ends lead to the same state, the Stop stage, and neither is an error (R135). Outside a Wait
stage neither has an effect: R159 says so of the interruption; an expiry cannot occur there (R158), and that such a move
changes nothing is the model's choice (log 12). -/
def Obligations.WaitEndsEitherWay : Prop :=
  ∀ (s : State) (m : Move) (ms : List Move), m = .settleExpiry ∨ m = .settleInterrupt → s.moves = m :: ms →
    (∀ x : Txn, s.inflight = some x → x.stage = .wait →
      step s = .next { s with moves := ms, inflight := some { x with stage := .stop } }) ∧
    ((∀ x : Txn, s.inflight = some x → x.stage ≠ .wait) → step s = .next { s with moves := ms })

/-- A held command runs, when the transaction has ended, as it would have run on arrival (R136); the Cancel of a cancelling one
was made at its arrival. -/
def Obligations.HeldCommandRunsAfterTheTransaction : Prop :=
  ∀ (s : State) (i : Instr) (ms : List Move),
    s.moves = .shell :: ms → s.held = some i → s.busy = false → s.dev ≠ .released →
    (cancelling i = true → s.rpt = .idle ∧ s.due = false) →
    step s = exec i { s with moves := ms, held := none }

/-! ## STARTREPEAT, the schedule, SHUTDOWN -/

/-- STARTREPEAT k (R140), also while BUSY = 1: with a ready device Repeating(k), DUE and the response OK, at once; E_SETUP with
the schedule cancelled after a failed startup; E_RELEASED after SHUTDOWN. -/
def Obligations.StartrepeatArmsTheSchedule : Prop :=
  ∀ (k : Key) (s : State),
    (s.dev = .ready → exec (.startrepeat k) s = .next { s with
      rpt := .repeating k
      due := true
      responses := s.responses ++ [.ok] }) ∧
    (s.dev = .failed → exec (.startrepeat k) s = .next { s with
      rpt := .idle
      due := false
      err := if s.err = .ok then .setup else s.err
      responses := s.responses ++ [.setup] }) ∧
    (s.dev = .released → exec (.startrepeat k) s = .next { s with
      err := if s.err = .ok then .released else s.err
      responses := s.responses ++ [.released] })

/-- An expiry of the repeat timer sets DUE while RPT = 1, also when it is set; while RPT = 0 it cannot occur (R141,
R157), and that such a move changes nothing is the model's choice (log 12). -/
def Obligations.RepeatExpirySetsDue : Prop :=
  ∀ (s : State) (ms : List Move), s.moves = .repeatExpiry :: ms →
    (∀ k, s.rpt = .repeating k → step s = .next { s with moves := ms, due := true }) ∧
    (s.rpt = .idle → step s = .next { s with moves := ms })

/-- The tick starts a transaction of the schedule's key exactly when it is enabled (R142); that a tick that is not enabled
changes nothing is the model's choice (log 12). -/
def Obligations.TickStartsOnlyWhenEnabled : Prop :=
  ∀ (s : State) (ms : List Move), s.moves = .tick :: ms →
    (∀ k, s.rpt = .repeating k → s.due = true → s.busy = false → s.dev = .ready →
      step s = .next { s with moves := ms, due := false, inflight := some ⟨.encode, k, .tick⟩ }) ∧
    (s.rpt = .idle ∨ s.due = false ∨ s.busy = true ∨ s.dev ≠ .ready → step s = .next { s with moves := ms })

/-- The auto-repeat state machine (R143, R144): in one step that is no reset, RPT with RKEY stays, or becomes Idle by a
cancelling command of the host, or becomes Repeating(k) by STARTREPEAT k, the host's or one that was held. -/
def Obligations.RepeatChangesOnlyByKeyCommands : Prop :=
  ∀ s t : State, s.noReset → step s = .next t → t.rpt ≠ s.rpt →
    (∃ w i, s.moves.head? = some (.host w) ∧ decode w = .ok i ∧ cancelling i = true ∧
      (t.rpt = .idle ∨ ∃ k, i = .startrepeat k ∧ t.rpt = .repeating k)) ∨
    (∃ k, s.held = some (.startrepeat k) ∧ t.rpt = .repeating k)

/-- A due tick and a key command at once (R161): in one order the tick never starts, in the other its transaction is in flight
and the command waits behind it with the schedule cancelled. Both orders are runs. -/
def Obligations.TickAndCommandInEitherOrder : Prop :=
  ∀ (s : State) (k l : Key) (ms : List Move),
    s.dev = .ready → s.busy = false → s.held = none → s.rpt = .repeating k → s.due = true →
    Host.Core.run Sys2Proof.core 2 { s with moves := .host (encode (.transmit l)) :: .tick :: ms } =
      .next { s with moves := ms, rpt := .idle, due := false, inflight := some ⟨.encode, l, .host⟩ } ∧
    Host.Core.run Sys2Proof.core 2 { s with moves := .tick :: .host (encode (.transmit l)) :: ms } =
      .next { s with
        moves := ms
        rpt := .idle
        due := false
        inflight := some ⟨.encode, k, .tick⟩
        held := some (.transmit l) }

/-- SHUTDOWN (R145): with a ready device `release()` is recorded; with a failed one it is not; DEV becomes Released, the schedule
is cancelled, the response is OK. The cancel is not held; the release is. A second one answers E_RELEASED. -/
def Obligations.ShutdownReleasesTheDevice : Prop :=
  ∀ s : State,
    (s.dev = .ready → s.busy = false → exec .shutdown s = .next { s with
      rpt := .idle
      due := false
      dev := .released
      devtrace := s.devtrace ++ [.release]
      responses := s.responses ++ [.ok] }) ∧
    (s.dev = .failed → s.busy = false → exec .shutdown s = .next { s with
      rpt := .idle
      due := false
      dev := .released
      responses := s.responses ++ [.ok] }) ∧
    (s.dev ≠ .released → s.busy = true → exec .shutdown s = .next { s with
      rpt := .idle
      due := false
      held := some .shutdown }) ∧
    (s.dev = .released → exec .shutdown s = .next { s with
      err := if s.err = .ok then .released else s.err
      responses := s.responses ++ [.released] })

/-- Since the last reset `release` stands at most once in DEVTRACE; where it stands DEV is Released and no call follows it
(R145, R173). -/
def Obligations.ReleaseStandsAtMostOnce : Prop :=
  ∀ s : State, s.ControlInv → s.TraceInv →
    s.devtrace.count .release ≤ 1 ∧
    (DevCall.release ∈ s.devtrace → s.dev = .released ∧ s.devtrace.getLast? = some .release)

/-! ## Rules over all steps -/

/-- ERR keeps the first error since reset: no step but a reset changes it once it is set, and where it is first set its code is
the response of the command that raised it, or the error is that of a transaction no command waits for (R36, R152). -/
def Obligations.FirstErrorIsKept : Prop :=
  ∀ s t : State, s.noReset → step s = .next t →
    (s.err ≠ .ok → t.err = s.err) ∧
    (s.err = .ok → t.err ≠ .ok → t.responses = s.responses ++ [t.err] ∨ t.responses = s.responses)

/-- FS, SPB and TOTAL are loaded by a reset and change by nothing else; FC, PERIODS and AMAX read as their
hardwired values in every state (R37). -/
def Obligations.ConfigurationIsConstant : Prop :=
  (∀ s t : State, s.noReset → step s = .next t →
    t.fs = s.fs ∧ t.spb = s.spb ∧ t.total = s.total) ∧
  (∀ (s t : State) (r : Startup) (ms : List Move), s.moves = .reset r :: ms → step s = .next t →
    t.fs = r.fs ∧ t.spb = 8 * r.fs / 16386 ∧ t.total = 11 * t.spb) ∧
  (∀ s : State, s.readCR 6 = 16386#32 ∧ s.readCR 7 = 8#32 ∧ s.readCR 10 = 32767#32)

/-- POL changes only by a SETPOL of the host, at its arrival or after being held, never while a transaction is in flight (R22,
R100, R191). -/
def Obligations.PolarityChangesOnlyBySetpol : Prop :=
  ∀ s t : State, s.noReset → step s = .next t → t.pol ≠ s.pol →
    s.busy = false ∧
    ((∃ w, s.moves.head? = some (.host w) ∧ decode w = .ok (.setpol t.pol)) ∨ s.held = some (.setpol t.pol))

/-- The sample memory changes only by SYNTH or a Synth stage: else every word is kept (R51). -/
def Obligations.MemoryChangesOnlyBySynth : Prop :=
  ∀ s t : State, s.noReset → step s = .next t →
    t.buf = s.buf ∨
    (∃ f, s.frame = some f ∧ t.bv = true ∧ (∀ i, s.total ≤ i → Memory.read t.buf i = Memory.read s.buf i) ∧
      ((∃ x, s.inflight = some x ∧ x.stage = .synth) ∨ s.held = some .synth ∨
        ∃ w, s.moves.head? = some (.host w) ∧ decode w = .ok .synth))

/-- A device call is recorded only as the call of the stage that waits, with the device's answer, a write with all samples of
BUF, or as the release of a SHUTDOWN, the host's or one that was held; one call a step (R43, R134, R137, R145). -/
def Obligations.DeviceCallsOnlyInTheirStages : Prop :=
  ∀ s t : State, s.noReset → step s = .next t → t.devtrace ≠ s.devtrace →
    (∃ (x : Txn) (ok : Bool), s.inflight = some x ∧ s.moves.head? = some (.answer ok) ∧
      ((x.stage = .write ∧ t.devtrace = s.devtrace ++ [.write (Memory.samples s.buf s.total) ok]) ∨
        (x.stage = .play ∧ t.devtrace = s.devtrace ++ [.play ok]) ∨
        (x.stage = .stop ∧ t.devtrace = s.devtrace ++ [.stop ok]) ∨
        (x.stage = .reload ∧ t.devtrace = s.devtrace ++ [.reloadBuffer ok]))) ∨
    (t.devtrace = s.devtrace ++ [.release] ∧ s.busy = false ∧ s.dev = .ready ∧ t.dev = .released ∧
      (s.held = some .shutdown ∨ ∃ w, s.moves.head? = some (.host w) ∧ decode w = .ok .shutdown))

/-- The model's own bookkeeping (log 2, 4, 16, 20): a step takes exactly the next move off the list, a reset too, gives at
most one response, and never changes the tolerance; a reset starts the record of responses anew. -/
def Obligations.StepTakesOneMoveAndAnswersAtMostOnce : Prop :=
  ∀ s t : State, step s = .next t →
    t.moves = s.moves.tail ∧ t.tol = s.tol ∧
    (s.noReset → t.responses = s.responses ∨ ∃ c, t.responses = s.responses ++ [c]) ∧
    (∀ r, s.moves.head? = some (.reset r) → t.responses = [])

/-! ## Reset and the read ports -/

/-- The reset sequence at any time, with any admitted rate, device and preference (R44, R180 to R184). -/
def Obligations.ResetSequence : Prop :=
  ∀ (s : State) (r : Startup) (ms : List Move), s.moves = .reset r :: ms → 2049 ≤ r.fs → r.fs < 2 ^ 32 →
    ∃ t : State, step s = .next t ∧
      t.key = none ∧ t.frame = none ∧ t.fv = false ∧ t.pol = r.polPref ∧ t.buf = [] ∧ t.bv = false ∧
      t.rpt = .idle ∧ t.due = false ∧ t.busy = false ∧ t.inflight = none ∧ t.held = none ∧
      t.fs = r.fs ∧ t.spb = 8 * r.fs / 16386 ∧ t.total = 11 * (8 * r.fs / 16386) ∧
      t.readCR 6 = 16386#32 ∧ t.readCR 7 = 8#32 ∧ t.readCR 10 = 32767#32 ∧
      (r.device = .answers true → t.dev = .ready ∧ t.err = .ok ∧ t.status = 0x10#6 ∧
        t.devtrace = [.configure r.fs 1 16 .staticBuffer true]) ∧
      (r.device = .answers false → t.dev = .failed ∧ t.err = .setup ∧ t.status = 0x20#6 ∧
        t.devtrace = [.configure r.fs 1 16 .staticBuffer false]) ∧
      (r.device = .absent → t.dev = .failed ∧ t.err = .setup ∧ t.status = 0x20#6 ∧ t.devtrace = [])

/-- The register read port (R34, R35, R38): the layout of STATUS with the number of each DEV value (R26), the number of each
code (R151), the values, 0 for what holds no value and above 11. -/
def Obligations.RegisterReadPort : Prop :=
  [Device.unconfigured, .ready, .failed, .released].map Device.bits = [0#2, 1#2, 2#2, 3#2] ∧
  [Code.ok, .setup, .write, .play, .stop, .reload, .illegal, .noFrame, .released].map Code.bits =
    [0#4, 1#4, 2#4, 3#4, 4#4, 5#4, 6#4, 7#4, 8#4] ∧
  ∀ s : State,
    (s.readCR 0).getLsbD 0 = s.busy ∧ (s.readCR 0).getLsbD 1 = s.fv ∧ (s.readCR 0).getLsbD 2 = s.bv ∧
    (s.readCR 0).getLsbD 3 = s.repeats ∧ (s.readCR 0).extractLsb' 4 2 = s.dev.bits ∧ (s.readCR 0).extractLsb' 6 26 = 0#26 ∧
    s.readCR 1 = s.err.bits.setWidth 32 ∧
    (s.fv = false → s.readCR 2 = 0#32 ∧ s.readCR 3 = 0#32) ∧
    (∀ k f, s.key = some k → s.frame = some f → s.readCR 2 = k.setWidth 32 ∧ s.readCR 3 = f.setWidth 32) ∧
    s.readCR 4 = s.pol.setWidth 32 ∧ s.readCR 5 = BitVec.ofNat 32 s.fs ∧ s.readCR 6 = 16386#32 ∧ s.readCR 7 = 8#32 ∧
    s.readCR 8 = BitVec.ofNat 32 s.spb ∧ s.readCR 9 = BitVec.ofNat 32 s.total ∧ s.readCR 10 = 32767#32 ∧
    (s.rpt = .idle → s.readCR 11 = 0#32) ∧ (∀ k, s.rpt = .repeating k → s.readCR 11 = k.setWidth 32) ∧
    (∀ n, 11 < n → s.readCR n = 0#32)

/-- The sample read port refuses a read while BV = 0 and at TOTAL and above, and else gives the sample (R52); in a state that
meets `BufferInv` every other read gives a sample. -/
def Obligations.SampleReadPort : Prop :=
  ∀ (s : State) (i : Nat),
    (s.bv = false → s.sampleRead i = .error .sampleReadRefused) ∧
    (s.total ≤ i → s.sampleRead i = .error .sampleReadRefused) ∧
    (∀ w, s.bv = true → i < s.total → Memory.read s.buf i = some w → s.sampleRead i = .ok w.toInt) ∧
    (s.BufferInv → s.bv = true → i < s.total → ∃ v, s.sampleRead i = .ok v)

/-- On a byte-wide path the less significant byte goes first (R53). -/
def Obligations.SampleBytesAreLittleEndian : Prop :=
  ∀ w : Word, ∃ lo hi : BitVec 8, sampleBytes w = [lo, hi] ∧ hi ++ lo = w

/-! ## Invariants -/

/-- Every step keeps the sample memory canonical, inside BUF, full exactly when BV says so, and free of -32768. -/
def Obligations.BufferInvariantIsKept : Prop := ∀ s t : State, s.BufferInv → step s = .next t → t.BufferInv

/-- Every step keeps FRAME the frame of KEY, FV marking both, and FS a rate the model admits: at least 2049 (R8), and below
2^32, which is the model's inference (log 13). -/
def Obligations.EncodeInvariantIsKept : Prop :=
  ∀ s t : State, s.EncodeInv → s.RateInv → step s = .next t → t.EncodeInv ∧ t.RateInv

/-- Every step keeps the invariant of the control shell. -/
def Obligations.ControlInvariantIsKept : Prop := ∀ s t : State, s.ControlInv → step s = .next t → t.ControlInv

/-- Every step keeps a transaction on its own key and its own buffer: what the Write stage hands out is TKEY's frame with the
POL in force (R59, R138). -/
def Obligations.TransactionInvariantIsKept : Prop := ∀ s t : State, s.TxnInv → step s = .next t → t.TxnInv

/-- Every step keeps the device trace in order: whole groups, cut short only by a fail answer, never interleaved (R138, R145). -/
def Obligations.TraceInvariantIsKept : Prop :=
  ∀ s t : State, s.ControlInv → s.TraceInv → step s = .next t → t.TraceInv

/-- The state after every admitted reset meets the invariant, and so does `State.reset`. -/
def Obligations.ResetMeetsTheInvariant : Prop :=
  State.reset.Inv ∧
  ∀ (tol : Nat) (ms : List Move) (r : Startup), r.admitted = true → (startUp tol ms r).Inv

/-- From a state that meets the transaction invariant no step ends in a fault. -/
def Obligations.NoFaultUnderTheInvariant : Prop := ∀ (s : State) (e : Fault), s.TxnInv → step s ≠ .fault e
end

