-- ==== Sys2Proof/Laws/State.lean ====
section
/-! SUPPORT. One lemma per field of State and shared update, so that no later proof unfolds a record update. -/

namespace Sys2Proof.Machine

/-! ### `respond` -/

@[simp] theorem respond_key (c : Code) (s : State) : (respond c s).key = s.key := rfl
@[simp] theorem respond_frame (c : Code) (s : State) : (respond c s).frame = s.frame := rfl
@[simp] theorem respond_pol (c : Code) (s : State) : (respond c s).pol = s.pol := rfl
@[simp] theorem respond_buf (c : Code) (s : State) : (respond c s).buf = s.buf := rfl
@[simp] theorem respond_bv (c : Code) (s : State) : (respond c s).bv = s.bv := rfl
@[simp] theorem respond_rpt (c : Code) (s : State) : (respond c s).rpt = s.rpt := rfl
@[simp] theorem respond_due (c : Code) (s : State) : (respond c s).due = s.due := rfl
@[simp] theorem respond_dev (c : Code) (s : State) : (respond c s).dev = s.dev := rfl
@[simp] theorem respond_err (c : Code) (s : State) : (respond c s).err = s.err := rfl
@[simp] theorem respond_fs (c : Code) (s : State) : (respond c s).fs = s.fs := rfl
@[simp] theorem respond_spb (c : Code) (s : State) : (respond c s).spb = s.spb := rfl
@[simp] theorem respond_total (c : Code) (s : State) : (respond c s).total = s.total := rfl
@[simp] theorem respond_tol (c : Code) (s : State) : (respond c s).tol = s.tol := rfl
@[simp] theorem respond_inflight (c : Code) (s : State) : (respond c s).inflight = s.inflight := rfl
@[simp] theorem respond_held (c : Code) (s : State) : (respond c s).held = s.held := rfl
@[simp] theorem respond_devtrace (c : Code) (s : State) : (respond c s).devtrace = s.devtrace := rfl
@[simp] theorem respond_responses (c : Code) (s : State) : (respond c s).responses = s.responses ++ [c] := rfl
@[simp] theorem respond_moves (c : Code) (s : State) : (respond c s).moves = s.moves := rfl

/-! ### `raise` -/

@[simp] theorem raise_key (c : Code) (w : Bool) (s : State) : (raise c w s).key = s.key := rfl
@[simp] theorem raise_frame (c : Code) (w : Bool) (s : State) : (raise c w s).frame = s.frame := rfl
@[simp] theorem raise_pol (c : Code) (w : Bool) (s : State) : (raise c w s).pol = s.pol := rfl
@[simp] theorem raise_buf (c : Code) (w : Bool) (s : State) : (raise c w s).buf = s.buf := rfl
@[simp] theorem raise_bv (c : Code) (w : Bool) (s : State) : (raise c w s).bv = s.bv := rfl
@[simp] theorem raise_rpt (c : Code) (w : Bool) (s : State) : (raise c w s).rpt = s.rpt := rfl
@[simp] theorem raise_due (c : Code) (w : Bool) (s : State) : (raise c w s).due = s.due := rfl
@[simp] theorem raise_dev (c : Code) (w : Bool) (s : State) : (raise c w s).dev = s.dev := rfl
@[simp] theorem raise_err (c : Code) (w : Bool) (s : State) : (raise c w s).err = if s.err = .ok then c else s.err := rfl
@[simp] theorem raise_fs (c : Code) (w : Bool) (s : State) : (raise c w s).fs = s.fs := rfl
@[simp] theorem raise_spb (c : Code) (w : Bool) (s : State) : (raise c w s).spb = s.spb := rfl
@[simp] theorem raise_total (c : Code) (w : Bool) (s : State) : (raise c w s).total = s.total := rfl
@[simp] theorem raise_tol (c : Code) (w : Bool) (s : State) : (raise c w s).tol = s.tol := rfl
@[simp] theorem raise_inflight (c : Code) (w : Bool) (s : State) : (raise c w s).inflight = s.inflight := rfl
@[simp] theorem raise_held (c : Code) (w : Bool) (s : State) : (raise c w s).held = s.held := rfl
@[simp] theorem raise_devtrace (c : Code) (w : Bool) (s : State) : (raise c w s).devtrace = s.devtrace := rfl
@[simp] theorem raise_responses (c : Code) (w : Bool) (s : State) : (raise c w s).responses = if w then s.responses ++ [c] else s.responses := rfl
@[simp] theorem raise_moves (c : Code) (w : Bool) (s : State) : (raise c w s).moves = s.moves := rfl

/-! ### `cancel` -/

@[simp] theorem cancel_key (s : State) : (cancel s).key = s.key := rfl
@[simp] theorem cancel_frame (s : State) : (cancel s).frame = s.frame := rfl
@[simp] theorem cancel_pol (s : State) : (cancel s).pol = s.pol := rfl
@[simp] theorem cancel_buf (s : State) : (cancel s).buf = s.buf := rfl
@[simp] theorem cancel_bv (s : State) : (cancel s).bv = s.bv := rfl
@[simp] theorem cancel_rpt (s : State) : (cancel s).rpt = .idle := rfl
@[simp] theorem cancel_due (s : State) : (cancel s).due = false := rfl
@[simp] theorem cancel_dev (s : State) : (cancel s).dev = s.dev := rfl
@[simp] theorem cancel_err (s : State) : (cancel s).err = s.err := rfl
@[simp] theorem cancel_fs (s : State) : (cancel s).fs = s.fs := rfl
@[simp] theorem cancel_spb (s : State) : (cancel s).spb = s.spb := rfl
@[simp] theorem cancel_total (s : State) : (cancel s).total = s.total := rfl
@[simp] theorem cancel_tol (s : State) : (cancel s).tol = s.tol := rfl
@[simp] theorem cancel_inflight (s : State) : (cancel s).inflight = s.inflight := rfl
@[simp] theorem cancel_held (s : State) : (cancel s).held = s.held := rfl
@[simp] theorem cancel_devtrace (s : State) : (cancel s).devtrace = s.devtrace := rfl
@[simp] theorem cancel_responses (s : State) : (cancel s).responses = s.responses := rfl
@[simp] theorem cancel_moves (s : State) : (cancel s).moves = s.moves := rfl

/-! ### `hold` -/

@[simp] theorem hold_key (i : Instr) (s : State) : (hold i s).key = s.key := rfl
@[simp] theorem hold_frame (i : Instr) (s : State) : (hold i s).frame = s.frame := rfl
@[simp] theorem hold_pol (i : Instr) (s : State) : (hold i s).pol = s.pol := rfl
@[simp] theorem hold_buf (i : Instr) (s : State) : (hold i s).buf = s.buf := rfl
@[simp] theorem hold_bv (i : Instr) (s : State) : (hold i s).bv = s.bv := rfl
@[simp] theorem hold_rpt (i : Instr) (s : State) : (hold i s).rpt = s.rpt := rfl
@[simp] theorem hold_due (i : Instr) (s : State) : (hold i s).due = s.due := rfl
@[simp] theorem hold_dev (i : Instr) (s : State) : (hold i s).dev = s.dev := rfl
@[simp] theorem hold_err (i : Instr) (s : State) : (hold i s).err = s.err := rfl
@[simp] theorem hold_fs (i : Instr) (s : State) : (hold i s).fs = s.fs := rfl
@[simp] theorem hold_spb (i : Instr) (s : State) : (hold i s).spb = s.spb := rfl
@[simp] theorem hold_total (i : Instr) (s : State) : (hold i s).total = s.total := rfl
@[simp] theorem hold_tol (i : Instr) (s : State) : (hold i s).tol = s.tol := rfl
@[simp] theorem hold_inflight (i : Instr) (s : State) : (hold i s).inflight = s.inflight := rfl
@[simp] theorem hold_held (i : Instr) (s : State) : (hold i s).held = some i := rfl
@[simp] theorem hold_devtrace (i : Instr) (s : State) : (hold i s).devtrace = s.devtrace := rfl
@[simp] theorem hold_responses (i : Instr) (s : State) : (hold i s).responses = s.responses := rfl
@[simp] theorem hold_moves (i : Instr) (s : State) : (hold i s).moves = s.moves := rfl

/-! ### `logCall` -/

@[simp] theorem logCall_key (d : DevCall) (s : State) : (logCall d s).key = s.key := rfl
@[simp] theorem logCall_frame (d : DevCall) (s : State) : (logCall d s).frame = s.frame := rfl
@[simp] theorem logCall_pol (d : DevCall) (s : State) : (logCall d s).pol = s.pol := rfl
@[simp] theorem logCall_buf (d : DevCall) (s : State) : (logCall d s).buf = s.buf := rfl
@[simp] theorem logCall_bv (d : DevCall) (s : State) : (logCall d s).bv = s.bv := rfl
@[simp] theorem logCall_rpt (d : DevCall) (s : State) : (logCall d s).rpt = s.rpt := rfl
@[simp] theorem logCall_due (d : DevCall) (s : State) : (logCall d s).due = s.due := rfl
@[simp] theorem logCall_dev (d : DevCall) (s : State) : (logCall d s).dev = s.dev := rfl
@[simp] theorem logCall_err (d : DevCall) (s : State) : (logCall d s).err = s.err := rfl
@[simp] theorem logCall_fs (d : DevCall) (s : State) : (logCall d s).fs = s.fs := rfl
@[simp] theorem logCall_spb (d : DevCall) (s : State) : (logCall d s).spb = s.spb := rfl
@[simp] theorem logCall_total (d : DevCall) (s : State) : (logCall d s).total = s.total := rfl
@[simp] theorem logCall_tol (d : DevCall) (s : State) : (logCall d s).tol = s.tol := rfl
@[simp] theorem logCall_inflight (d : DevCall) (s : State) : (logCall d s).inflight = s.inflight := rfl
@[simp] theorem logCall_held (d : DevCall) (s : State) : (logCall d s).held = s.held := rfl
@[simp] theorem logCall_devtrace (d : DevCall) (s : State) : (logCall d s).devtrace = s.devtrace ++ [d] := rfl
@[simp] theorem logCall_responses (d : DevCall) (s : State) : (logCall d s).responses = s.responses := rfl
@[simp] theorem logCall_moves (d : DevCall) (s : State) : (logCall d s).moves = s.moves := rfl

/-! ### `loadFrame` -/

@[simp] theorem loadFrame_key (k : Key) (f : Frame) (s : State) : (loadFrame k f s).key = some k := rfl
@[simp] theorem loadFrame_frame (k : Key) (f : Frame) (s : State) : (loadFrame k f s).frame = some f := rfl
@[simp] theorem loadFrame_pol (k : Key) (f : Frame) (s : State) : (loadFrame k f s).pol = s.pol := rfl
@[simp] theorem loadFrame_buf (k : Key) (f : Frame) (s : State) : (loadFrame k f s).buf = s.buf := rfl
@[simp] theorem loadFrame_bv (k : Key) (f : Frame) (s : State) : (loadFrame k f s).bv = s.bv := rfl
@[simp] theorem loadFrame_rpt (k : Key) (f : Frame) (s : State) : (loadFrame k f s).rpt = s.rpt := rfl
@[simp] theorem loadFrame_due (k : Key) (f : Frame) (s : State) : (loadFrame k f s).due = s.due := rfl
@[simp] theorem loadFrame_dev (k : Key) (f : Frame) (s : State) : (loadFrame k f s).dev = s.dev := rfl
@[simp] theorem loadFrame_err (k : Key) (f : Frame) (s : State) : (loadFrame k f s).err = s.err := rfl
@[simp] theorem loadFrame_fs (k : Key) (f : Frame) (s : State) : (loadFrame k f s).fs = s.fs := rfl
@[simp] theorem loadFrame_spb (k : Key) (f : Frame) (s : State) : (loadFrame k f s).spb = s.spb := rfl
@[simp] theorem loadFrame_total (k : Key) (f : Frame) (s : State) : (loadFrame k f s).total = s.total := rfl
@[simp] theorem loadFrame_tol (k : Key) (f : Frame) (s : State) : (loadFrame k f s).tol = s.tol := rfl
@[simp] theorem loadFrame_inflight (k : Key) (f : Frame) (s : State) : (loadFrame k f s).inflight = s.inflight := rfl
@[simp] theorem loadFrame_held (k : Key) (f : Frame) (s : State) : (loadFrame k f s).held = s.held := rfl
@[simp] theorem loadFrame_devtrace (k : Key) (f : Frame) (s : State) : (loadFrame k f s).devtrace = s.devtrace := rfl
@[simp] theorem loadFrame_responses (k : Key) (f : Frame) (s : State) : (loadFrame k f s).responses = s.responses := rfl
@[simp] theorem loadFrame_moves (k : Key) (f : Frame) (s : State) : (loadFrame k f s).moves = s.moves := rfl

/-! ### `fillBuffer` -/

@[simp] theorem fillBuffer_key (ws : List Word) (s : State) : (fillBuffer ws s).key = s.key := rfl
@[simp] theorem fillBuffer_frame (ws : List Word) (s : State) : (fillBuffer ws s).frame = s.frame := rfl
@[simp] theorem fillBuffer_pol (ws : List Word) (s : State) : (fillBuffer ws s).pol = s.pol := rfl
@[simp] theorem fillBuffer_buf (ws : List Word) (s : State) : (fillBuffer ws s).buf = Memory.writeFrom s.buf 0 ws := rfl
@[simp] theorem fillBuffer_bv (ws : List Word) (s : State) : (fillBuffer ws s).bv = true := rfl
@[simp] theorem fillBuffer_rpt (ws : List Word) (s : State) : (fillBuffer ws s).rpt = s.rpt := rfl
@[simp] theorem fillBuffer_due (ws : List Word) (s : State) : (fillBuffer ws s).due = s.due := rfl
@[simp] theorem fillBuffer_dev (ws : List Word) (s : State) : (fillBuffer ws s).dev = s.dev := rfl
@[simp] theorem fillBuffer_err (ws : List Word) (s : State) : (fillBuffer ws s).err = s.err := rfl
@[simp] theorem fillBuffer_fs (ws : List Word) (s : State) : (fillBuffer ws s).fs = s.fs := rfl
@[simp] theorem fillBuffer_spb (ws : List Word) (s : State) : (fillBuffer ws s).spb = s.spb := rfl
@[simp] theorem fillBuffer_total (ws : List Word) (s : State) : (fillBuffer ws s).total = s.total := rfl
@[simp] theorem fillBuffer_tol (ws : List Word) (s : State) : (fillBuffer ws s).tol = s.tol := rfl
@[simp] theorem fillBuffer_inflight (ws : List Word) (s : State) : (fillBuffer ws s).inflight = s.inflight := rfl
@[simp] theorem fillBuffer_held (ws : List Word) (s : State) : (fillBuffer ws s).held = s.held := rfl
@[simp] theorem fillBuffer_devtrace (ws : List Word) (s : State) : (fillBuffer ws s).devtrace = s.devtrace := rfl
@[simp] theorem fillBuffer_responses (ws : List Word) (s : State) : (fillBuffer ws s).responses = s.responses := rfl
@[simp] theorem fillBuffer_moves (ws : List Word) (s : State) : (fillBuffer ws s).moves = s.moves := rfl

/-! ### `beginTxn` -/

@[simp] theorem beginTxn_key (k : Key) (c : Source) (s : State) : (beginTxn k c s).key = s.key := rfl
@[simp] theorem beginTxn_frame (k : Key) (c : Source) (s : State) : (beginTxn k c s).frame = s.frame := rfl
@[simp] theorem beginTxn_pol (k : Key) (c : Source) (s : State) : (beginTxn k c s).pol = s.pol := rfl
@[simp] theorem beginTxn_buf (k : Key) (c : Source) (s : State) : (beginTxn k c s).buf = s.buf := rfl
@[simp] theorem beginTxn_bv (k : Key) (c : Source) (s : State) : (beginTxn k c s).bv = s.bv := rfl
@[simp] theorem beginTxn_rpt (k : Key) (c : Source) (s : State) : (beginTxn k c s).rpt = s.rpt := rfl
@[simp] theorem beginTxn_due (k : Key) (c : Source) (s : State) : (beginTxn k c s).due = s.due := rfl
@[simp] theorem beginTxn_dev (k : Key) (c : Source) (s : State) : (beginTxn k c s).dev = s.dev := rfl
@[simp] theorem beginTxn_err (k : Key) (c : Source) (s : State) : (beginTxn k c s).err = s.err := rfl
@[simp] theorem beginTxn_fs (k : Key) (c : Source) (s : State) : (beginTxn k c s).fs = s.fs := rfl
@[simp] theorem beginTxn_spb (k : Key) (c : Source) (s : State) : (beginTxn k c s).spb = s.spb := rfl
@[simp] theorem beginTxn_total (k : Key) (c : Source) (s : State) : (beginTxn k c s).total = s.total := rfl
@[simp] theorem beginTxn_tol (k : Key) (c : Source) (s : State) : (beginTxn k c s).tol = s.tol := rfl
@[simp] theorem beginTxn_inflight (k : Key) (c : Source) (s : State) : (beginTxn k c s).inflight = some ⟨.encode, k, c⟩ := rfl
@[simp] theorem beginTxn_held (k : Key) (c : Source) (s : State) : (beginTxn k c s).held = s.held := rfl
@[simp] theorem beginTxn_devtrace (k : Key) (c : Source) (s : State) : (beginTxn k c s).devtrace = s.devtrace := rfl
@[simp] theorem beginTxn_responses (k : Key) (c : Source) (s : State) : (beginTxn k c s).responses = s.responses := rfl
@[simp] theorem beginTxn_moves (k : Key) (c : Source) (s : State) : (beginTxn k c s).moves = s.moves := rfl

/-! ### `goTo` -/

@[simp] theorem goTo_key (g : Stage) (t : Txn) (s : State) : (goTo g t s).key = s.key := rfl
@[simp] theorem goTo_frame (g : Stage) (t : Txn) (s : State) : (goTo g t s).frame = s.frame := rfl
@[simp] theorem goTo_pol (g : Stage) (t : Txn) (s : State) : (goTo g t s).pol = s.pol := rfl
@[simp] theorem goTo_buf (g : Stage) (t : Txn) (s : State) : (goTo g t s).buf = s.buf := rfl
@[simp] theorem goTo_bv (g : Stage) (t : Txn) (s : State) : (goTo g t s).bv = s.bv := rfl
@[simp] theorem goTo_rpt (g : Stage) (t : Txn) (s : State) : (goTo g t s).rpt = s.rpt := rfl
@[simp] theorem goTo_due (g : Stage) (t : Txn) (s : State) : (goTo g t s).due = s.due := rfl
@[simp] theorem goTo_dev (g : Stage) (t : Txn) (s : State) : (goTo g t s).dev = s.dev := rfl
@[simp] theorem goTo_err (g : Stage) (t : Txn) (s : State) : (goTo g t s).err = s.err := rfl
@[simp] theorem goTo_fs (g : Stage) (t : Txn) (s : State) : (goTo g t s).fs = s.fs := rfl
@[simp] theorem goTo_spb (g : Stage) (t : Txn) (s : State) : (goTo g t s).spb = s.spb := rfl
@[simp] theorem goTo_total (g : Stage) (t : Txn) (s : State) : (goTo g t s).total = s.total := rfl
@[simp] theorem goTo_tol (g : Stage) (t : Txn) (s : State) : (goTo g t s).tol = s.tol := rfl
@[simp] theorem goTo_inflight (g : Stage) (t : Txn) (s : State) : (goTo g t s).inflight = some { t with stage := g } := rfl
@[simp] theorem goTo_held (g : Stage) (t : Txn) (s : State) : (goTo g t s).held = s.held := rfl
@[simp] theorem goTo_devtrace (g : Stage) (t : Txn) (s : State) : (goTo g t s).devtrace = s.devtrace := rfl
@[simp] theorem goTo_responses (g : Stage) (t : Txn) (s : State) : (goTo g t s).responses = s.responses := rfl
@[simp] theorem goTo_moves (g : Stage) (t : Txn) (s : State) : (goTo g t s).moves = s.moves := rfl

/-! ### `endTxn` -/

@[simp] theorem endTxn_key (c : Code) (t : Txn) (s : State) : (endTxn c t s).key = s.key := rfl
@[simp] theorem endTxn_frame (c : Code) (t : Txn) (s : State) : (endTxn c t s).frame = s.frame := rfl
@[simp] theorem endTxn_pol (c : Code) (t : Txn) (s : State) : (endTxn c t s).pol = s.pol := rfl
@[simp] theorem endTxn_buf (c : Code) (t : Txn) (s : State) : (endTxn c t s).buf = s.buf := rfl
@[simp] theorem endTxn_bv (c : Code) (t : Txn) (s : State) : (endTxn c t s).bv = s.bv := rfl
@[simp] theorem endTxn_rpt (c : Code) (t : Txn) (s : State) : (endTxn c t s).rpt = s.rpt := rfl
@[simp] theorem endTxn_due (c : Code) (t : Txn) (s : State) : (endTxn c t s).due = s.due := rfl
@[simp] theorem endTxn_dev (c : Code) (t : Txn) (s : State) : (endTxn c t s).dev = s.dev := rfl
@[simp] theorem endTxn_err (c : Code) (t : Txn) (s : State) : (endTxn c t s).err = if s.err = .ok then c else s.err := rfl
@[simp] theorem endTxn_fs (c : Code) (t : Txn) (s : State) : (endTxn c t s).fs = s.fs := rfl
@[simp] theorem endTxn_spb (c : Code) (t : Txn) (s : State) : (endTxn c t s).spb = s.spb := rfl
@[simp] theorem endTxn_total (c : Code) (t : Txn) (s : State) : (endTxn c t s).total = s.total := rfl
@[simp] theorem endTxn_tol (c : Code) (t : Txn) (s : State) : (endTxn c t s).tol = s.tol := rfl
@[simp] theorem endTxn_inflight (c : Code) (t : Txn) (s : State) : (endTxn c t s).inflight = none := rfl
@[simp] theorem endTxn_held (c : Code) (t : Txn) (s : State) : (endTxn c t s).held = s.held := rfl
@[simp] theorem endTxn_devtrace (c : Code) (t : Txn) (s : State) : (endTxn c t s).devtrace = s.devtrace := rfl
@[simp] theorem endTxn_responses (c : Code) (t : Txn) (s : State) : (endTxn c t s).responses = if decide (t.src = .host) then s.responses ++ [c] else s.responses := rfl
@[simp] theorem endTxn_moves (c : Code) (t : Txn) (s : State) : (endTxn c t s).moves = s.moves := rfl

end Sys2Proof.Machine
end

