-- ==== Sys2Proof/Laws/Memory.lean ====
section
/-! SUPPORT. The laws of the sample memory: a read gives the latest write, a write leaves every other index alone, and every
operation keeps the canonical form. -/

namespace Sys2Proof.Machine

@[simp] theorem Memory.read_nil (i : Nat) : Memory.read [] i = none := rfl

theorem Memory.read_write (m : Memory) (i j : Nat) (w : Word) :
    Memory.read (Memory.write m i w) j = if j = i then some w else Memory.read m j := by
  induction m with
  | nil => simp [Memory.write, Memory.read]
  | cons c m ih =>
    obtain ⟨a, v⟩ := c
    by_cases h1 : i < a
    · simp [Memory.write, Memory.read, h1]
    · by_cases h2 : i = a
      · subst h2; by_cases hj : j = i <;> simp [Memory.write, Memory.read, hj]
      · by_cases hj : j = i
        · subst hj; simp [Memory.write, Memory.read, h1, h2, ih]
        · simp [Memory.write, Memory.read, h1, h2, ih, hj]

theorem Memory.mem_write {m : Memory} {i : Nat} {w : Word} {c : Nat × Word} (h : c ∈ Memory.write m i w) :
    c = (i, w) ∨ c ∈ m := by
  induction m with
  | nil => simpa [Memory.write] using h
  | cons d m ih =>
    obtain ⟨a, v⟩ := d
    simp only [Memory.write] at h
    split_ifs at h with h1 h2
    · simpa using h
    · rcases List.mem_cons.1 h with h | h
      · exact .inl h
      · exact .inr (List.mem_cons_of_mem _ h)
    · rcases List.mem_cons.1 h with h | h
      · exact .inr (by simp [h])
      · exact (ih h).imp id (List.mem_cons_of_mem _)

theorem Memory.write_wf {m : Memory} (h : Memory.wf m) (i : Nat) (w : Word) : Memory.wf (Memory.write m i w) := by
  induction m with
  | nil => simp [Memory.write, Memory.wf]
  | cons d m ih =>
    obtain ⟨a, v⟩ := d
    have hm := List.pairwise_cons.1 h
    simp only [Memory.write]
    split_ifs with h1 h2
    · refine List.pairwise_cons.2 ⟨fun c hc => ?_, h⟩
      rcases List.mem_cons.1 hc with rfl | hc
      · exact h1
      · exact lt_trans h1 (hm.1 c hc)
    · subst h2; exact List.pairwise_cons.2 ⟨hm.1, hm.2⟩
    · refine List.pairwise_cons.2 ⟨fun c hc => ?_, ih hm.2⟩
      rcases Memory.mem_write hc with rfl | hc
      · show a < i; omega
      · exact hm.1 c hc

/-- Reading after a run of stores at rising indices from `i`. -/
theorem Memory.read_writeFrom (ws : List Word) (m : Memory) (i j : Nat) :
    Memory.read (Memory.writeFrom m i ws) j =
      if i ≤ j ∧ j < i + ws.length then ws[j - i]? else Memory.read m j := by
  induction ws generalizing m i with
  | nil => simp [Memory.writeFrom]
  | cons w ws ih =>
    rw [Memory.writeFrom, ih, Memory.read_write]
    by_cases hj : j = i
    · subst hj; simp
    · by_cases hlt : i + 1 ≤ j ∧ j < i + 1 + ws.length
      · have h2 : i ≤ j ∧ j < i + (w :: ws).length := by simp only [List.length_cons]; omega
        have h3 : j - i = (j - (i + 1)) + 1 := by omega
        rw [if_pos hlt, if_pos h2, h3, List.getElem?_cons_succ]
      · have h2 : ¬ (i ≤ j ∧ j < i + (w :: ws).length) := by simp only [List.length_cons]; omega
        rw [if_neg hlt, if_neg h2, if_neg hj]

theorem Memory.mem_writeFrom {ws : List Word} {m : Memory} {i : Nat} {c : Nat × Word}
    (h : c ∈ Memory.writeFrom m i ws) : (c.1 < i + ws.length ∧ c.2 ∈ ws) ∨ c ∈ m := by
  induction ws generalizing m i with
  | nil => exact .inr h
  | cons w ws ih =>
    rcases ih h with h | h
    · exact .inl ⟨by simp only [List.length_cons]; omega, List.mem_cons_of_mem _ h.2⟩
    · rcases Memory.mem_write h with rfl | h
      · exact .inl ⟨by simp, by simp⟩
      · exact .inr h

theorem Memory.writeFrom_wf {m : Memory} (h : Memory.wf m) (i : Nat) (ws : List Word) :
    Memory.wf (Memory.writeFrom m i ws) := by
  induction ws generalizing m i with
  | nil => exact h
  | cons w ws ih => exact ih (Memory.write_wf h i w) _

theorem Memory.filled_iff (m : Memory) (n : Nat) :
    Memory.filled m n = true ↔ ∀ i < n, ∃ w, Memory.read m i = some w := by
  simp [Memory.filled, Option.isSome_iff_exists]

theorem reset_buf_wf : Memory.wf State.reset.buf := List.Pairwise.nil

@[simp] theorem synthWords_length (s : State) (f : Frame) : (synthWords s f).length = s.total := by
  simp [synthWords]

theorem synthWords_get {s : State} {f : Frame} {i : Nat} (h : i < s.total) :
    (synthWords s f)[i]? = some (BitVec.ofInt 16 (sampleValue s f i)) := by
  simp [synthWords, h]

/-- All SYNTH does to the memory: every index below TOTAL takes its sample, every other keeps its word. -/
theorem read_synthFrame (s : State) (f : Frame) (i : Nat) :
    Memory.read (synthFrame f s).buf i =
      if i < s.total then some (BitVec.ofInt 16 (sampleValue s f i)) else Memory.read s.buf i := by
  rw [synthFrame, fillBuffer_buf, Memory.read_writeFrom, synthWords_length]
  by_cases h : i < s.total
  · rw [if_pos ⟨Nat.zero_le _, by omega⟩, if_pos h]; exact synthWords_get h
  · rw [if_neg (by omega), if_neg h]

end Sys2Proof.Machine
end

