-- ==== Sys2Proof/Laws/PerInstr.lean ====
section
/-! SUPPORT. Statements about every command as syntax, one lemma per constructor. -/

namespace Sys2Proof.Laws

/-- The word of a command is legal and its `z` field is zero (R71, R76). -/
def EncodedWordIsLegal.Statement (i : Instr) : Prop := legalWord (encode i) = true ∧ zField (encode i) = 0#4

theorem EncodedWordIsLegal.encode (k : Key) : EncodedWordIsLegal.Statement (.encode k) := by
  unfold EncodedWordIsLegal.Statement; revert k; decide +kernel

theorem EncodedWordIsLegal.synth : EncodedWordIsLegal.Statement .synth := by
  unfold EncodedWordIsLegal.Statement; decide

theorem EncodedWordIsLegal.setpol (b : Polarity) : EncodedWordIsLegal.Statement (.setpol b) := by
  unfold EncodedWordIsLegal.Statement; revert b; decide

theorem EncodedWordIsLegal.transmit (k : Key) : EncodedWordIsLegal.Statement (.transmit k) := by
  unfold EncodedWordIsLegal.Statement; revert k; decide +kernel

theorem EncodedWordIsLegal.startrepeat (k : Key) : EncodedWordIsLegal.Statement (.startrepeat k) := by
  unfold EncodedWordIsLegal.Statement; revert k; decide +kernel

theorem EncodedWordIsLegal.shutdown : EncodedWordIsLegal.Statement .shutdown := by
  unfold EncodedWordIsLegal.Statement; decide

end Sys2Proof.Laws
end

