-- ==== Sys2Proof/Laws/Phases.lean ====
section
/-! SUPPORT. One lemma per field of State for what a command does once it may go, and for the stages of a transaction, so that
no later proof splits their cases again. -/

namespace Sys2Proof.Machine

/-! ### `transmitPhase` -/

@[simp] theorem transmitPhase_key (k : Key) (s : State) : (transmitPhase k s).key = s.key := by
  unfold transmitPhase; split <;> simp [*]
@[simp] theorem transmitPhase_frame (k : Key) (s : State) : (transmitPhase k s).frame = s.frame := by
  unfold transmitPhase; split <;> simp [*]
@[simp] theorem transmitPhase_pol (k : Key) (s : State) : (transmitPhase k s).pol = s.pol := by
  unfold transmitPhase; split <;> simp [*]
@[simp] theorem transmitPhase_buf (k : Key) (s : State) : (transmitPhase k s).buf = s.buf := by
  unfold transmitPhase; split <;> simp [*]
@[simp] theorem transmitPhase_bv (k : Key) (s : State) : (transmitPhase k s).bv = s.bv := by
  unfold transmitPhase; split <;> simp [*]
@[simp] theorem transmitPhase_rpt (k : Key) (s : State) : (transmitPhase k s).rpt = s.rpt := by
  unfold transmitPhase; split <;> simp [*]
@[simp] theorem transmitPhase_due (k : Key) (s : State) : (transmitPhase k s).due = s.due := by
  unfold transmitPhase; split <;> simp [*]
@[simp] theorem transmitPhase_dev (k : Key) (s : State) : (transmitPhase k s).dev = s.dev := by
  unfold transmitPhase; split <;> simp [*]
@[simp] theorem transmitPhase_err (k : Key) (s : State) : (transmitPhase k s).err = if s.dev ≠ .ready ∧ s.err = .ok then .setup else s.err := by
  unfold transmitPhase; split <;> simp [*]
@[simp] theorem transmitPhase_fs (k : Key) (s : State) : (transmitPhase k s).fs = s.fs := by
  unfold transmitPhase; split <;> simp [*]
@[simp] theorem transmitPhase_spb (k : Key) (s : State) : (transmitPhase k s).spb = s.spb := by
  unfold transmitPhase; split <;> simp [*]
@[simp] theorem transmitPhase_total (k : Key) (s : State) : (transmitPhase k s).total = s.total := by
  unfold transmitPhase; split <;> simp [*]
@[simp] theorem transmitPhase_tol (k : Key) (s : State) : (transmitPhase k s).tol = s.tol := by
  unfold transmitPhase; split <;> simp [*]
@[simp] theorem transmitPhase_inflight (k : Key) (s : State) : (transmitPhase k s).inflight = if s.dev = .ready then some ⟨.encode, k, .host⟩ else s.inflight := by
  unfold transmitPhase; split <;> simp [*]
@[simp] theorem transmitPhase_held (k : Key) (s : State) : (transmitPhase k s).held = s.held := by
  unfold transmitPhase; split <;> simp [*]
@[simp] theorem transmitPhase_devtrace (k : Key) (s : State) : (transmitPhase k s).devtrace = s.devtrace := by
  unfold transmitPhase; split <;> simp [*]
@[simp] theorem transmitPhase_responses (k : Key) (s : State) : (transmitPhase k s).responses = if s.dev = .ready then s.responses else s.responses ++ [.setup] := by
  unfold transmitPhase; split <;> simp [*]
@[simp] theorem transmitPhase_moves (k : Key) (s : State) : (transmitPhase k s).moves = s.moves := by
  unfold transmitPhase; split <;> simp [*]

/-! ### `startrepeatPhase` -/

@[simp] theorem startrepeatPhase_key (k : Key) (s : State) : (startrepeatPhase k s).key = s.key := by
  unfold startrepeatPhase; split <;> simp [*]
@[simp] theorem startrepeatPhase_frame (k : Key) (s : State) : (startrepeatPhase k s).frame = s.frame := by
  unfold startrepeatPhase; split <;> simp [*]
@[simp] theorem startrepeatPhase_pol (k : Key) (s : State) : (startrepeatPhase k s).pol = s.pol := by
  unfold startrepeatPhase; split <;> simp [*]
@[simp] theorem startrepeatPhase_buf (k : Key) (s : State) : (startrepeatPhase k s).buf = s.buf := by
  unfold startrepeatPhase; split <;> simp [*]
@[simp] theorem startrepeatPhase_bv (k : Key) (s : State) : (startrepeatPhase k s).bv = s.bv := by
  unfold startrepeatPhase; split <;> simp [*]
@[simp] theorem startrepeatPhase_rpt (k : Key) (s : State) : (startrepeatPhase k s).rpt = if s.dev = .ready then .repeating k else s.rpt := by
  unfold startrepeatPhase; split <;> simp [*]
@[simp] theorem startrepeatPhase_due (k : Key) (s : State) : (startrepeatPhase k s).due = if s.dev = .ready then true else s.due := by
  unfold startrepeatPhase; split <;> simp [*]
@[simp] theorem startrepeatPhase_dev (k : Key) (s : State) : (startrepeatPhase k s).dev = s.dev := by
  unfold startrepeatPhase; split <;> simp [*]
@[simp] theorem startrepeatPhase_err (k : Key) (s : State) : (startrepeatPhase k s).err = if s.dev ≠ .ready ∧ s.err = .ok then .setup else s.err := by
  unfold startrepeatPhase; split <;> simp [*]
@[simp] theorem startrepeatPhase_fs (k : Key) (s : State) : (startrepeatPhase k s).fs = s.fs := by
  unfold startrepeatPhase; split <;> simp [*]
@[simp] theorem startrepeatPhase_spb (k : Key) (s : State) : (startrepeatPhase k s).spb = s.spb := by
  unfold startrepeatPhase; split <;> simp [*]
@[simp] theorem startrepeatPhase_total (k : Key) (s : State) : (startrepeatPhase k s).total = s.total := by
  unfold startrepeatPhase; split <;> simp [*]
@[simp] theorem startrepeatPhase_tol (k : Key) (s : State) : (startrepeatPhase k s).tol = s.tol := by
  unfold startrepeatPhase; split <;> simp [*]
@[simp] theorem startrepeatPhase_inflight (k : Key) (s : State) : (startrepeatPhase k s).inflight = s.inflight := by
  unfold startrepeatPhase; split <;> simp [*]
@[simp] theorem startrepeatPhase_held (k : Key) (s : State) : (startrepeatPhase k s).held = s.held := by
  unfold startrepeatPhase; split <;> simp [*]
@[simp] theorem startrepeatPhase_devtrace (k : Key) (s : State) : (startrepeatPhase k s).devtrace = s.devtrace := by
  unfold startrepeatPhase; split <;> simp [*]
@[simp] theorem startrepeatPhase_responses (k : Key) (s : State) : (startrepeatPhase k s).responses = if s.dev = .ready then s.responses ++ [.ok] else s.responses ++ [.setup] := by
  unfold startrepeatPhase; split <;> simp [*]
@[simp] theorem startrepeatPhase_moves (k : Key) (s : State) : (startrepeatPhase k s).moves = s.moves := by
  unfold startrepeatPhase; split <;> simp [*]

/-! ### `shutdownPhase` -/

@[simp] theorem shutdownPhase_key (s : State) : (shutdownPhase s).key = s.key := by
  unfold shutdownPhase; split <;> rfl
@[simp] theorem shutdownPhase_frame (s : State) : (shutdownPhase s).frame = s.frame := by
  unfold shutdownPhase; split <;> rfl
@[simp] theorem shutdownPhase_pol (s : State) : (shutdownPhase s).pol = s.pol := by
  unfold shutdownPhase; split <;> rfl
@[simp] theorem shutdownPhase_buf (s : State) : (shutdownPhase s).buf = s.buf := by
  unfold shutdownPhase; split <;> rfl
@[simp] theorem shutdownPhase_bv (s : State) : (shutdownPhase s).bv = s.bv := by
  unfold shutdownPhase; split <;> rfl
@[simp] theorem shutdownPhase_rpt (s : State) : (shutdownPhase s).rpt = s.rpt := by
  unfold shutdownPhase; split <;> rfl
@[simp] theorem shutdownPhase_due (s : State) : (shutdownPhase s).due = s.due := by
  unfold shutdownPhase; split <;> rfl
@[simp] theorem shutdownPhase_dev (s : State) : (shutdownPhase s).dev = .released := rfl
@[simp] theorem shutdownPhase_err (s : State) : (shutdownPhase s).err = s.err := by
  unfold shutdownPhase; split <;> rfl
@[simp] theorem shutdownPhase_fs (s : State) : (shutdownPhase s).fs = s.fs := by
  unfold shutdownPhase; split <;> rfl
@[simp] theorem shutdownPhase_spb (s : State) : (shutdownPhase s).spb = s.spb := by
  unfold shutdownPhase; split <;> rfl
@[simp] theorem shutdownPhase_total (s : State) : (shutdownPhase s).total = s.total := by
  unfold shutdownPhase; split <;> rfl
@[simp] theorem shutdownPhase_tol (s : State) : (shutdownPhase s).tol = s.tol := by
  unfold shutdownPhase; split <;> rfl
@[simp] theorem shutdownPhase_inflight (s : State) : (shutdownPhase s).inflight = s.inflight := by
  unfold shutdownPhase; split <;> rfl
@[simp] theorem shutdownPhase_held (s : State) : (shutdownPhase s).held = s.held := by
  unfold shutdownPhase; split <;> rfl
@[simp] theorem shutdownPhase_devtrace (s : State) : (shutdownPhase s).devtrace = if s.dev = .ready then s.devtrace ++ [.release] else s.devtrace := by
  unfold shutdownPhase; split <;> rfl
@[simp] theorem shutdownPhase_responses (s : State) : (shutdownPhase s).responses = s.responses ++ [.ok] := by
  unfold shutdownPhase; split <;> rfl
@[simp] theorem shutdownPhase_moves (s : State) : (shutdownPhase s).moves = s.moves := by
  unfold shutdownPhase; split <;> rfl

/-! ### `encodePhase` -/

@[simp] theorem encodePhase_key (k : Key) (s : State) : (encodePhase k s).key = some k := rfl
@[simp] theorem encodePhase_frame (k : Key) (s : State) : (encodePhase k s).frame = some (frameOf k) := rfl
@[simp] theorem encodePhase_pol (k : Key) (s : State) : (encodePhase k s).pol = s.pol := rfl
@[simp] theorem encodePhase_buf (k : Key) (s : State) : (encodePhase k s).buf = s.buf := rfl
@[simp] theorem encodePhase_bv (k : Key) (s : State) : (encodePhase k s).bv = s.bv := rfl
@[simp] theorem encodePhase_rpt (k : Key) (s : State) : (encodePhase k s).rpt = s.rpt := rfl
@[simp] theorem encodePhase_due (k : Key) (s : State) : (encodePhase k s).due = s.due := rfl
@[simp] theorem encodePhase_dev (k : Key) (s : State) : (encodePhase k s).dev = s.dev := rfl
@[simp] theorem encodePhase_err (k : Key) (s : State) : (encodePhase k s).err = s.err := rfl
@[simp] theorem encodePhase_fs (k : Key) (s : State) : (encodePhase k s).fs = s.fs := rfl
@[simp] theorem encodePhase_spb (k : Key) (s : State) : (encodePhase k s).spb = s.spb := rfl
@[simp] theorem encodePhase_total (k : Key) (s : State) : (encodePhase k s).total = s.total := rfl
@[simp] theorem encodePhase_tol (k : Key) (s : State) : (encodePhase k s).tol = s.tol := rfl
@[simp] theorem encodePhase_inflight (k : Key) (s : State) : (encodePhase k s).inflight = s.inflight := rfl
@[simp] theorem encodePhase_held (k : Key) (s : State) : (encodePhase k s).held = s.held := rfl
@[simp] theorem encodePhase_devtrace (k : Key) (s : State) : (encodePhase k s).devtrace = s.devtrace := rfl
@[simp] theorem encodePhase_responses (k : Key) (s : State) : (encodePhase k s).responses = s.responses ++ [.ok] := rfl
@[simp] theorem encodePhase_moves (k : Key) (s : State) : (encodePhase k s).moves = s.moves := rfl

/-! ### `setpolPhase` -/

@[simp] theorem setpolPhase_key (b : Polarity) (s : State) : (setpolPhase b s).key = s.key := rfl
@[simp] theorem setpolPhase_frame (b : Polarity) (s : State) : (setpolPhase b s).frame = s.frame := rfl
@[simp] theorem setpolPhase_pol (b : Polarity) (s : State) : (setpolPhase b s).pol = b := rfl
@[simp] theorem setpolPhase_buf (b : Polarity) (s : State) : (setpolPhase b s).buf = s.buf := rfl
@[simp] theorem setpolPhase_bv (b : Polarity) (s : State) : (setpolPhase b s).bv = s.bv := rfl
@[simp] theorem setpolPhase_rpt (b : Polarity) (s : State) : (setpolPhase b s).rpt = s.rpt := rfl
@[simp] theorem setpolPhase_due (b : Polarity) (s : State) : (setpolPhase b s).due = s.due := rfl
@[simp] theorem setpolPhase_dev (b : Polarity) (s : State) : (setpolPhase b s).dev = s.dev := rfl
@[simp] theorem setpolPhase_err (b : Polarity) (s : State) : (setpolPhase b s).err = s.err := rfl
@[simp] theorem setpolPhase_fs (b : Polarity) (s : State) : (setpolPhase b s).fs = s.fs := rfl
@[simp] theorem setpolPhase_spb (b : Polarity) (s : State) : (setpolPhase b s).spb = s.spb := rfl
@[simp] theorem setpolPhase_total (b : Polarity) (s : State) : (setpolPhase b s).total = s.total := rfl
@[simp] theorem setpolPhase_tol (b : Polarity) (s : State) : (setpolPhase b s).tol = s.tol := rfl
@[simp] theorem setpolPhase_inflight (b : Polarity) (s : State) : (setpolPhase b s).inflight = s.inflight := rfl
@[simp] theorem setpolPhase_held (b : Polarity) (s : State) : (setpolPhase b s).held = s.held := rfl
@[simp] theorem setpolPhase_devtrace (b : Polarity) (s : State) : (setpolPhase b s).devtrace = s.devtrace := rfl
@[simp] theorem setpolPhase_responses (b : Polarity) (s : State) : (setpolPhase b s).responses = s.responses ++ [.ok] := rfl
@[simp] theorem setpolPhase_moves (b : Polarity) (s : State) : (setpolPhase b s).moves = s.moves := rfl

/-! ### `synthPhase` -/

@[simp] theorem synthPhase_key (s : State) : (synthPhase s).key = s.key := by
  unfold synthPhase; split <;> simp [synthFrame, *]
@[simp] theorem synthPhase_frame (s : State) : (synthPhase s).frame = s.frame := by
  unfold synthPhase; split <;> simp [synthFrame, *]
@[simp] theorem synthPhase_pol (s : State) : (synthPhase s).pol = s.pol := by
  unfold synthPhase; split <;> simp [synthFrame, *]
@[simp] theorem synthPhase_bv (s : State) : (synthPhase s).bv = if s.fv then true else s.bv := by
  unfold synthPhase; split <;> simp [synthFrame, State.fv, *]
@[simp] theorem synthPhase_rpt (s : State) : (synthPhase s).rpt = s.rpt := by
  unfold synthPhase; split <;> simp [synthFrame, *]
@[simp] theorem synthPhase_due (s : State) : (synthPhase s).due = s.due := by
  unfold synthPhase; split <;> simp [synthFrame, *]
@[simp] theorem synthPhase_dev (s : State) : (synthPhase s).dev = s.dev := by
  unfold synthPhase; split <;> simp [synthFrame, *]
@[simp] theorem synthPhase_err (s : State) : (synthPhase s).err = if s.fv = false ∧ s.err = .ok then .noFrame else s.err := by
  unfold synthPhase; split <;> simp [synthFrame, State.fv, *]
@[simp] theorem synthPhase_fs (s : State) : (synthPhase s).fs = s.fs := by
  unfold synthPhase; split <;> simp [synthFrame, *]
@[simp] theorem synthPhase_spb (s : State) : (synthPhase s).spb = s.spb := by
  unfold synthPhase; split <;> simp [synthFrame, *]
@[simp] theorem synthPhase_total (s : State) : (synthPhase s).total = s.total := by
  unfold synthPhase; split <;> simp [synthFrame, *]
@[simp] theorem synthPhase_tol (s : State) : (synthPhase s).tol = s.tol := by
  unfold synthPhase; split <;> simp [synthFrame, *]
@[simp] theorem synthPhase_inflight (s : State) : (synthPhase s).inflight = s.inflight := by
  unfold synthPhase; split <;> simp [synthFrame, *]
@[simp] theorem synthPhase_held (s : State) : (synthPhase s).held = s.held := by
  unfold synthPhase; split <;> simp [synthFrame, *]
@[simp] theorem synthPhase_devtrace (s : State) : (synthPhase s).devtrace = s.devtrace := by
  unfold synthPhase; split <;> simp [synthFrame, *]
@[simp] theorem synthPhase_responses (s : State) : (synthPhase s).responses = if s.fv then s.responses ++ [.ok] else s.responses ++ [.noFrame] := by
  unfold synthPhase; split <;> simp [synthFrame, State.fv, *]
@[simp] theorem synthPhase_moves (s : State) : (synthPhase s).moves = s.moves := by
  unfold synthPhase; split <;> simp [synthFrame, *]

/-! ### `illegalWord` -/

@[simp] theorem illegalWord_key (s : State) : (illegalWord s).key = s.key := by
  unfold illegalWord; split <;> simp [*]
@[simp] theorem illegalWord_frame (s : State) : (illegalWord s).frame = s.frame := by
  unfold illegalWord; split <;> simp [*]
@[simp] theorem illegalWord_pol (s : State) : (illegalWord s).pol = s.pol := by
  unfold illegalWord; split <;> simp [*]
@[simp] theorem illegalWord_buf (s : State) : (illegalWord s).buf = s.buf := by
  unfold illegalWord; split <;> simp [*]
@[simp] theorem illegalWord_bv (s : State) : (illegalWord s).bv = s.bv := by
  unfold illegalWord; split <;> simp [*]
@[simp] theorem illegalWord_rpt (s : State) : (illegalWord s).rpt = s.rpt := by
  unfold illegalWord; split <;> simp [*]
@[simp] theorem illegalWord_due (s : State) : (illegalWord s).due = s.due := by
  unfold illegalWord; split <;> simp [*]
@[simp] theorem illegalWord_dev (s : State) : (illegalWord s).dev = s.dev := by
  unfold illegalWord; split <;> simp [*]
@[simp] theorem illegalWord_err (s : State) : (illegalWord s).err = if s.err = .ok then (if s.dev = .released then .released else .illegal) else s.err := by
  unfold illegalWord; split <;> simp [*]
@[simp] theorem illegalWord_fs (s : State) : (illegalWord s).fs = s.fs := by
  unfold illegalWord; split <;> simp [*]
@[simp] theorem illegalWord_spb (s : State) : (illegalWord s).spb = s.spb := by
  unfold illegalWord; split <;> simp [*]
@[simp] theorem illegalWord_total (s : State) : (illegalWord s).total = s.total := by
  unfold illegalWord; split <;> simp [*]
@[simp] theorem illegalWord_tol (s : State) : (illegalWord s).tol = s.tol := by
  unfold illegalWord; split <;> simp [*]
@[simp] theorem illegalWord_inflight (s : State) : (illegalWord s).inflight = s.inflight := by
  unfold illegalWord; split <;> simp [*]
@[simp] theorem illegalWord_held (s : State) : (illegalWord s).held = s.held := by
  unfold illegalWord; split <;> simp [*]
@[simp] theorem illegalWord_devtrace (s : State) : (illegalWord s).devtrace = s.devtrace := by
  unfold illegalWord; split <;> simp [*]
@[simp] theorem illegalWord_responses (s : State) : (illegalWord s).responses = s.responses ++ [if s.dev = .released then .released else .illegal] := by
  unfold illegalWord; split <;> simp [*]
@[simp] theorem illegalWord_moves (s : State) : (illegalWord s).moves = s.moves := by
  unfold illegalWord; split <;> simp [*]

/-! ### `playStage` -/

@[simp] theorem playStage_key (ok : Bool) (t : Txn) (s : State) : (playStage ok t s).key = s.key := by
  cases ok <;> simp [playStage]
@[simp] theorem playStage_frame (ok : Bool) (t : Txn) (s : State) : (playStage ok t s).frame = s.frame := by
  cases ok <;> simp [playStage]
@[simp] theorem playStage_pol (ok : Bool) (t : Txn) (s : State) : (playStage ok t s).pol = s.pol := by
  cases ok <;> simp [playStage]
@[simp] theorem playStage_buf (ok : Bool) (t : Txn) (s : State) : (playStage ok t s).buf = s.buf := by
  cases ok <;> simp [playStage]
@[simp] theorem playStage_bv (ok : Bool) (t : Txn) (s : State) : (playStage ok t s).bv = s.bv := by
  cases ok <;> simp [playStage]
@[simp] theorem playStage_rpt (ok : Bool) (t : Txn) (s : State) : (playStage ok t s).rpt = s.rpt := by
  cases ok <;> simp [playStage]
@[simp] theorem playStage_due (ok : Bool) (t : Txn) (s : State) : (playStage ok t s).due = s.due := by
  cases ok <;> simp [playStage]
@[simp] theorem playStage_dev (ok : Bool) (t : Txn) (s : State) : (playStage ok t s).dev = s.dev := by
  cases ok <;> simp [playStage]
@[simp] theorem playStage_err (ok : Bool) (t : Txn) (s : State) : (playStage ok t s).err = if ok = false ∧ s.err = .ok then .play else s.err := by
  cases ok <;> by_cases h : s.err = .ok <;> simp [playStage, h]
@[simp] theorem playStage_fs (ok : Bool) (t : Txn) (s : State) : (playStage ok t s).fs = s.fs := by
  cases ok <;> simp [playStage]
@[simp] theorem playStage_spb (ok : Bool) (t : Txn) (s : State) : (playStage ok t s).spb = s.spb := by
  cases ok <;> simp [playStage]
@[simp] theorem playStage_total (ok : Bool) (t : Txn) (s : State) : (playStage ok t s).total = s.total := by
  cases ok <;> simp [playStage]
@[simp] theorem playStage_tol (ok : Bool) (t : Txn) (s : State) : (playStage ok t s).tol = s.tol := by
  cases ok <;> simp [playStage]
@[simp] theorem playStage_inflight (ok : Bool) (t : Txn) (s : State) : (playStage ok t s).inflight = if ok then some { t with stage := .wait } else none := by
  cases ok <;> simp [playStage]
@[simp] theorem playStage_held (ok : Bool) (t : Txn) (s : State) : (playStage ok t s).held = s.held := by
  cases ok <;> simp [playStage]
@[simp] theorem playStage_devtrace (ok : Bool) (t : Txn) (s : State) : (playStage ok t s).devtrace = s.devtrace ++ [.play ok] := by
  cases ok <;> simp [playStage]
@[simp] theorem playStage_responses (ok : Bool) (t : Txn) (s : State) : (playStage ok t s).responses = if ok = false ∧ t.src = .host then s.responses ++ [.play] else s.responses := by
  cases ok <;> simp [playStage]
@[simp] theorem playStage_moves (ok : Bool) (t : Txn) (s : State) : (playStage ok t s).moves = s.moves := by
  cases ok <;> simp [playStage]

/-! ### `stopStage` -/

@[simp] theorem stopStage_key (ok : Bool) (t : Txn) (s : State) : (stopStage ok t s).key = s.key := by
  cases ok <;> simp [stopStage]
@[simp] theorem stopStage_frame (ok : Bool) (t : Txn) (s : State) : (stopStage ok t s).frame = s.frame := by
  cases ok <;> simp [stopStage]
@[simp] theorem stopStage_pol (ok : Bool) (t : Txn) (s : State) : (stopStage ok t s).pol = s.pol := by
  cases ok <;> simp [stopStage]
@[simp] theorem stopStage_buf (ok : Bool) (t : Txn) (s : State) : (stopStage ok t s).buf = s.buf := by
  cases ok <;> simp [stopStage]
@[simp] theorem stopStage_bv (ok : Bool) (t : Txn) (s : State) : (stopStage ok t s).bv = s.bv := by
  cases ok <;> simp [stopStage]
@[simp] theorem stopStage_rpt (ok : Bool) (t : Txn) (s : State) : (stopStage ok t s).rpt = s.rpt := by
  cases ok <;> simp [stopStage]
@[simp] theorem stopStage_due (ok : Bool) (t : Txn) (s : State) : (stopStage ok t s).due = s.due := by
  cases ok <;> simp [stopStage]
@[simp] theorem stopStage_dev (ok : Bool) (t : Txn) (s : State) : (stopStage ok t s).dev = s.dev := by
  cases ok <;> simp [stopStage]
@[simp] theorem stopStage_err (ok : Bool) (t : Txn) (s : State) : (stopStage ok t s).err = if ok = false ∧ s.err = .ok then .stop else s.err := by
  cases ok <;> by_cases h : s.err = .ok <;> simp [stopStage, h]
@[simp] theorem stopStage_fs (ok : Bool) (t : Txn) (s : State) : (stopStage ok t s).fs = s.fs := by
  cases ok <;> simp [stopStage]
@[simp] theorem stopStage_spb (ok : Bool) (t : Txn) (s : State) : (stopStage ok t s).spb = s.spb := by
  cases ok <;> simp [stopStage]
@[simp] theorem stopStage_total (ok : Bool) (t : Txn) (s : State) : (stopStage ok t s).total = s.total := by
  cases ok <;> simp [stopStage]
@[simp] theorem stopStage_tol (ok : Bool) (t : Txn) (s : State) : (stopStage ok t s).tol = s.tol := by
  cases ok <;> simp [stopStage]
@[simp] theorem stopStage_inflight (ok : Bool) (t : Txn) (s : State) : (stopStage ok t s).inflight = if ok then some { t with stage := .reload } else none := by
  cases ok <;> simp [stopStage]
@[simp] theorem stopStage_held (ok : Bool) (t : Txn) (s : State) : (stopStage ok t s).held = s.held := by
  cases ok <;> simp [stopStage]
@[simp] theorem stopStage_devtrace (ok : Bool) (t : Txn) (s : State) : (stopStage ok t s).devtrace = s.devtrace ++ [.stop ok] := by
  cases ok <;> simp [stopStage]
@[simp] theorem stopStage_responses (ok : Bool) (t : Txn) (s : State) : (stopStage ok t s).responses = if ok = false ∧ t.src = .host then s.responses ++ [.stop] else s.responses := by
  cases ok <;> simp [stopStage]
@[simp] theorem stopStage_moves (ok : Bool) (t : Txn) (s : State) : (stopStage ok t s).moves = s.moves := by
  cases ok <;> simp [stopStage]

/-! ### `reloadStage` -/

@[simp] theorem reloadStage_key (ok : Bool) (t : Txn) (s : State) : (reloadStage ok t s).key = s.key := by
  cases ok <;> simp [reloadStage]
@[simp] theorem reloadStage_frame (ok : Bool) (t : Txn) (s : State) : (reloadStage ok t s).frame = s.frame := by
  cases ok <;> simp [reloadStage]
@[simp] theorem reloadStage_pol (ok : Bool) (t : Txn) (s : State) : (reloadStage ok t s).pol = s.pol := by
  cases ok <;> simp [reloadStage]
@[simp] theorem reloadStage_buf (ok : Bool) (t : Txn) (s : State) : (reloadStage ok t s).buf = s.buf := by
  cases ok <;> simp [reloadStage]
@[simp] theorem reloadStage_bv (ok : Bool) (t : Txn) (s : State) : (reloadStage ok t s).bv = s.bv := by
  cases ok <;> simp [reloadStage]
@[simp] theorem reloadStage_rpt (ok : Bool) (t : Txn) (s : State) : (reloadStage ok t s).rpt = s.rpt := by
  cases ok <;> simp [reloadStage]
@[simp] theorem reloadStage_due (ok : Bool) (t : Txn) (s : State) : (reloadStage ok t s).due = s.due := by
  cases ok <;> simp [reloadStage]
@[simp] theorem reloadStage_dev (ok : Bool) (t : Txn) (s : State) : (reloadStage ok t s).dev = s.dev := by
  cases ok <;> simp [reloadStage]
@[simp] theorem reloadStage_err (ok : Bool) (t : Txn) (s : State) : (reloadStage ok t s).err = if ok = false ∧ s.err = .ok then .reload else s.err := by
  cases ok <;> by_cases h : s.err = .ok <;> simp [reloadStage, h]
@[simp] theorem reloadStage_fs (ok : Bool) (t : Txn) (s : State) : (reloadStage ok t s).fs = s.fs := by
  cases ok <;> simp [reloadStage]
@[simp] theorem reloadStage_spb (ok : Bool) (t : Txn) (s : State) : (reloadStage ok t s).spb = s.spb := by
  cases ok <;> simp [reloadStage]
@[simp] theorem reloadStage_total (ok : Bool) (t : Txn) (s : State) : (reloadStage ok t s).total = s.total := by
  cases ok <;> simp [reloadStage]
@[simp] theorem reloadStage_tol (ok : Bool) (t : Txn) (s : State) : (reloadStage ok t s).tol = s.tol := by
  cases ok <;> simp [reloadStage]
@[simp] theorem reloadStage_inflight (ok : Bool) (t : Txn) (s : State) : (reloadStage ok t s).inflight = none := by
  cases ok <;> simp [reloadStage]
@[simp] theorem reloadStage_held (ok : Bool) (t : Txn) (s : State) : (reloadStage ok t s).held = s.held := by
  cases ok <;> simp [reloadStage]
@[simp] theorem reloadStage_devtrace (ok : Bool) (t : Txn) (s : State) : (reloadStage ok t s).devtrace = s.devtrace ++ [.reloadBuffer ok] := by
  cases ok <;> simp [reloadStage]
@[simp] theorem reloadStage_responses (ok : Bool) (t : Txn) (s : State) : (reloadStage ok t s).responses = if t.src = .host then s.responses ++ [if ok then .ok else .reload] else s.responses := by
  cases ok <;> simp [reloadStage]
@[simp] theorem reloadStage_moves (ok : Bool) (t : Txn) (s : State) : (reloadStage ok t s).moves = s.moves := by
  cases ok <;> simp [reloadStage]

/-! ### `encodeStage` -/

@[simp] theorem encodeStage_key (t : Txn) (s : State) : (encodeStage t s).key = some t.key := rfl
@[simp] theorem encodeStage_frame (t : Txn) (s : State) : (encodeStage t s).frame = some (frameOf t.key) := rfl
@[simp] theorem encodeStage_pol (t : Txn) (s : State) : (encodeStage t s).pol = s.pol := rfl
@[simp] theorem encodeStage_buf (t : Txn) (s : State) : (encodeStage t s).buf = s.buf := rfl
@[simp] theorem encodeStage_bv (t : Txn) (s : State) : (encodeStage t s).bv = s.bv := rfl
@[simp] theorem encodeStage_rpt (t : Txn) (s : State) : (encodeStage t s).rpt = s.rpt := rfl
@[simp] theorem encodeStage_due (t : Txn) (s : State) : (encodeStage t s).due = s.due := rfl
@[simp] theorem encodeStage_dev (t : Txn) (s : State) : (encodeStage t s).dev = s.dev := rfl
@[simp] theorem encodeStage_err (t : Txn) (s : State) : (encodeStage t s).err = s.err := rfl
@[simp] theorem encodeStage_fs (t : Txn) (s : State) : (encodeStage t s).fs = s.fs := rfl
@[simp] theorem encodeStage_spb (t : Txn) (s : State) : (encodeStage t s).spb = s.spb := rfl
@[simp] theorem encodeStage_total (t : Txn) (s : State) : (encodeStage t s).total = s.total := rfl
@[simp] theorem encodeStage_tol (t : Txn) (s : State) : (encodeStage t s).tol = s.tol := rfl
@[simp] theorem encodeStage_inflight (t : Txn) (s : State) : (encodeStage t s).inflight = some { t with stage := .synth } := rfl
@[simp] theorem encodeStage_held (t : Txn) (s : State) : (encodeStage t s).held = s.held := rfl
@[simp] theorem encodeStage_devtrace (t : Txn) (s : State) : (encodeStage t s).devtrace = s.devtrace := rfl
@[simp] theorem encodeStage_responses (t : Txn) (s : State) : (encodeStage t s).responses = s.responses := rfl
@[simp] theorem encodeStage_moves (t : Txn) (s : State) : (encodeStage t s).moves = s.moves := rfl

/-- The memory after SYNTH: written where there is a frame, as it was where there is none. -/
theorem synthPhase_buf (s : State) :
    (∃ f, s.frame = some f ∧ (synthPhase s).buf = (synthFrame f s).buf) ∨ (s.frame = none ∧ (synthPhase s).buf = s.buf) := by
  unfold synthPhase
  split
  · rename_i h; exact .inr ⟨h, rfl⟩
  · rename_i f h; exact .inl ⟨f, h, rfl⟩

end Sys2Proof.Machine
end

