-- ==== Sys2Proof/Laws/Reset.lean ====
section
/-! SUPPORT. `State.reset` is the reset sequence of Machine/Ops.lean with the inputs Config names. -/

namespace Sys2Proof.Machine

theorem reset_eq_startUp : State.reset = startUp Config.carrierTol [] Config.startup := by decide

theorem startup_admitted : Config.startup.admitted = true := by decide

end Sys2Proof.Machine
end

