-- ==== Sys2Proof/Laws/Sine.lean ====
section
/-! SUPPORT. Small laws of the cut and of the polarity multiplier, and what the exact comparison of the sine unit says over the
reals. -/

namespace Sys2Proof.Machine

theorem neg_le_cut (b : Nat) (v : Int) : -(b : Int) ≤ cut b v := le_max_left _ _

theorem cut_le (b : Nat) (v : Int) : cut b v ≤ b := by unfold cut; omega

theorem cut_of_mem {b : Nat} {v : Int} (h1 : -(b : Int) ≤ v) (h2 : v ≤ b) : cut b v = v := by unfold cut; omega

/-- Cutting moves two values no further apart. -/
theorem abs_cut_sub_cut_le (b : Nat) (v w : Int) : |cut b v - cut b w| ≤ |v - w| := by
  unfold cut; rw [abs_le]; constructor <;> cases abs_cases (v - w) <;> omega

theorem polSign_cases (b : Polarity) : polSign b = 1 ∨ polSign b = -1 := by
  revert b; decide

theorem sin_eq_neg_one_pow_mul (h : ℕ) (x : ℝ) : Real.sin x = (-1) ^ h * Real.sin (x - h * Real.pi) := by
  rw [Real.sin_sub_nat_mul_pi, ← mul_assoc, ← mul_pow]; simp

/-- All `halfTurns` says: from the count at `k` it gives the count at `k + m`. -/
theorem halfTurns_bounds {c : ℤ} {φ : ℝ} (h0 : 0 < φ) (h1 : φ < Real.pi)
    (hc : (c : ℝ) = 2 * Config.AMAX * Real.cos φ) (m : ℕ) :
    ∀ (k h : ℕ) (a b : ℤ) (T : ℝ), 0 < T → (b : ℝ) = T * Real.sin (k * φ) →
      (Config.AMAX : ℝ) * a = T * Real.sin (k * φ - φ) → h * Real.pi ≤ k * φ → k * φ < (h + 1) * Real.pi →
      (halfTurns c m h a b : ℝ) * Real.pi ≤ (k + m : ℕ) * φ ∧
        ((k + m : ℕ) : ℝ) * φ < (halfTurns c m h a b + 1) * Real.pi := by
  induction m with
  | zero => intro k h a b T _ _ _ l u; simpa [halfTurns] using ⟨l, u⟩
  | succ m ih =>
    intro k h a b T hT hb ha l u
    have hA : (0 : ℝ) < Config.AMAX := by norm_num [Config.AMAX]
    have he : ((c * b - Config.AMAX ^ 2 * a : ℤ) : ℝ) = Config.AMAX * T * Real.sin ((k + 1 : ℕ) * φ) := by
      have e1 : Real.sin ((k + 1 : ℕ) * φ) + Real.sin (k * φ - φ) = 2 * Real.sin (k * φ) * Real.cos φ := by
        push_cast; rw [add_mul, one_mul, Real.sin_add, Real.sin_sub]; ring
      have e2 : (Config.AMAX : ℝ) ^ 2 * a = Config.AMAX * (T * Real.sin (k * φ - φ)) := by rw [← ha]; ring
      push_cast at e1 ⊢
      rw [e2, hb, hc]
      linear_combination (-(Config.AMAX : ℝ) * T) * e1
    have hpi := Real.pi_pos
    have hd : 0 < ((k + 1 : ℕ) : ℝ) * φ - h * Real.pi := by push_cast; nlinarith
    have hs : ((-1) ^ h * (c * b - Config.AMAX ^ 2 * a) ≤ 0) ↔ (h + 1) * Real.pi ≤ ((k + 1 : ℕ) : ℝ) * φ := by
      rw [← Int.cast_le (R := ℝ), Int.cast_mul, he, sin_eq_neg_one_pow_mul h]
      push_cast
      have e3 : (-1 : ℝ) ^ h * (Config.AMAX * T * ((-1) ^ h * Real.sin ((k + 1) * φ - h * Real.pi))) =
          Config.AMAX * T * Real.sin ((k + 1) * φ - h * Real.pi) := by
        have : (-1 : ℝ) ^ h * (-1) ^ h = 1 := by rw [← mul_pow]; simp
        linear_combination (Config.AMAX * T * Real.sin ((k + 1) * φ - h * Real.pi)) * this
      have hp := mul_pos hA hT
      rw [e3, show ∀ y : ℝ, Config.AMAX * T * y ≤ 0 ↔ y ≤ 0 from fun y =>
        ⟨fun h => nonpos_of_mul_nonpos_right h hp, mul_nonpos_of_nonneg_of_nonpos hp.le⟩]
      push_cast at hd
      constructor
      · intro hle
        by_contra hlt
        have := Real.sin_pos_of_pos_of_lt_pi hd (by linarith)
        linarith
      · intro hle
        have := Real.sin_nonneg_of_nonneg_of_le_pi (x := (k + 1) * φ - h * Real.pi - Real.pi) (by linarith) (by linarith)
        rw [Real.sin_sub_pi] at this
        linarith
    have := ih (k + 1) (if (-1) ^ h * (c * b - Config.AMAX ^ 2 * a) ≤ 0 then h + 1 else h) b
      (c * b - Config.AMAX ^ 2 * a) (Config.AMAX * T) (mul_pos hA hT) he
      (by rw [hb]; push_cast; rw [show ((k : ℝ) + 1) * φ - φ = k * φ by ring]; ring)
      (by split_ifs with hi
          · push_cast; simpa using hs.1 hi
          · linarith)
      (by split_ifs with hi
          · push_cast; linarith
          · exact lt_of_not_ge fun hge => hi (hs.2 hge))
    simpa [halfTurns, add_assoc, add_comm 1 m] using this

/-- `halfTurns` from the start is the number of half turns in `k * φ`, rounded down. -/
theorem halfTurns_eq_floor {c : ℤ} {φ : ℝ} (h0 : 0 < φ) (h1 : φ < Real.pi)
    (hc : (c : ℝ) = 2 * Config.AMAX * Real.cos φ) (m : ℕ) :
    halfTurns c m 0 0 1 = ⌊((m + 1 : ℕ) : ℝ) * φ / Real.pi⌋₊ := by
  have hs := Real.sin_pos_of_pos_of_lt_pi h0 h1
  have := halfTurns_bounds h0 h1 hc m 1 0 0 1 (Real.sin φ)⁻¹ (inv_pos.2 hs)
    (by simp [inv_mul_cancel₀ hs.ne']) (by simp) (by simpa using h0.le) (by simpa using h1)
  rw [add_comm 1 m] at this
  symm
  rw [Nat.floor_eq_iff (by positivity), le_div_iff₀ Real.pi_pos, div_lt_iff₀ Real.pi_pos]
  exact this

/-- The exact comparison of the sine unit, against the real sine. -/
theorem sineReaches_iff {n d : ℕ} {v : ℤ} (hd : 0 < d) (hn : 4 * n ≤ d) (h0 : 0 < v) (h1 : v ≤ Config.AMAX) :
    sineReaches n d v = true ↔ (v : ℝ) - 1 / 2 ≤ Config.AMAX * Real.sin (2 * Real.pi * n / d) := by
  have hpi := Real.pi_pos
  have hdr : (0 : ℝ) < d := by exact_mod_cast hd
  have hA : (0 : ℝ) < Config.AMAX := by norm_num [Config.AMAX]
  have hv0 : (1 : ℝ) ≤ v := by exact_mod_cast h0
  have hv1 : (v : ℝ) ≤ Config.AMAX := by exact_mod_cast h1
  have hn' : 4 * (n : ℝ) ≤ d := by exact_mod_cast hn
  obtain ⟨x, hx⟩ : ∃ x : ℝ, x = (2 * v - 1) / (2 * Config.AMAX) := ⟨_, rfl⟩
  have hx0 : 0 < x := by rw [hx]; apply div_pos <;> linarith
  have hx1 : x < 1 := by rw [hx, div_lt_one (by linarith)]; linarith
  have hcos : Real.cos (Real.arccos x) = x := Real.cos_arccos (by linarith) hx1.le
  have hc : ((2 * v - 1 : ℤ) : ℝ) = 2 * Config.AMAX * Real.cos (Real.arccos x) := by
    rw [hcos, hx]; push_cast; field_simp
  have hφ0 : 0 < Real.arccos x := Real.arccos_pos.2 hx1
  have hφ1 : Real.arccos x < Real.pi := by
    have := Real.arccos_lt_pi_div_two.2 hx0; linarith
  have hsin : Real.sin (2 * Real.pi * n / d) = Real.cos (Real.pi * (d - 4 * n) / (2 * d)) := by
    rw [← Real.cos_pi_div_two_sub]; congr 1; field_simp; ring
  have hθ0 : 0 ≤ Real.pi * (d - 4 * n) / (2 * d) := by
    apply div_nonneg (mul_nonneg hpi.le (by linarith)) (by linarith)
  have hθ1 : Real.pi * (d - 4 * n) / (2 * d) ≤ Real.pi := by
    rw [div_le_iff₀ (by linarith)]
    have : (0 : ℝ) ≤ n := Nat.cast_nonneg n
    nlinarith
  rw [sineReaches, decide_eq_true_iff, halfTurns_eq_floor hφ0 hφ1 hc, ← Nat.sub_le_iff_le_add',
    Nat.le_floor_iff (by positivity), le_div_iff₀ hpi, Nat.sub_add_cancel (by omega), Nat.cast_sub hn, hsin]
  have key : (Real.pi * (d - 4 * n) / (2 * d) ≤ Real.arccos x) ↔ x ≤ Real.cos (Real.pi * (d - 4 * n) / (2 * d)) := by
    conv_rhs => rw [← hcos]
    exact (Real.strictAntiOn_cos.le_iff_ge ⟨hφ0.le, hφ1.le⟩ ⟨hθ0, hθ1⟩).symm
  rw [show ((v : ℝ) - 1 / 2 ≤ Config.AMAX * Real.cos (Real.pi * (d - 4 * n) / (2 * d))) ↔
      x ≤ Real.cos (Real.pi * (d - 4 * n) / (2 * d)) from by
        rw [hx, div_le_iff₀ (by linarith)]; constructor <;> intro h <;> linarith,
    ← key, div_le_iff₀ (by linarith)]
  push_cast
  constructor <;> intro h <;> linarith

end Sys2Proof.Machine
end

