-- ==== Sys2Proof/Laws/Step.lean ====
section
/-! SUPPORT. What a step, a move and a command can do, said once: each lemma lists the ways an answer comes about, so that no
later proof unfolds the machine. -/

namespace Sys2Proof.Machine

/-- The next state of a command, as a total function: no command faults or is refused. -/
def execState (i : Instr) (s : State) : State :=
  if s.dev = .released then raise .released true s
  else
    match i with
    | .encode k => if s.busy then hold i s else encodePhase k s
    | .synth => if s.busy then hold i s else synthPhase s
    | .setpol b => if s.busy then hold i s else setpolPhase b s
    | .transmit k => if s.busy then hold i (cancel s) else transmitPhase k (cancel s)
    | .startrepeat k => startrepeatPhase k (cancel s)
    | .shutdown => if s.busy then hold i (cancel s) else shutdownPhase (cancel s)

theorem exec_eq (i : Instr) (s : State) : exec i s = .next (execState i s) := by
  cases i <;> rfl

theorem exec_released {s : State} (h : s.dev = .released) (i : Instr) : exec i s = .next (raise .released true s) := by
  cases i <;> exact congrArg _ (if_pos h)

/-- The four ways the control shell goes on. -/
theorem shell_cases {s t : State} (h : shell s = .next t) :
    (∃ x, s.inflight = some x ∧ x.stage = .encode ∧ t = encodeStage x s) ∨
    (∃ x f, s.inflight = some x ∧ x.stage = .synth ∧ s.frame = some f ∧ t = goTo .write x (synthFrame f s)) ∨
    (∃ x, s.inflight = some x ∧ t = s) ∨
    (s.inflight = none ∧ ∃ i, s.held = some i ∧ t = resume i { s with held := none }) ∨
    (s.inflight = none ∧ s.held = none ∧ t = tick s) := by
  unfold shell at h
  split at h
  · rename_i x hx
    split at h <;> rename_i hg
    · cases h; exact .inl ⟨x, hx, hg, rfl⟩
    · unfold synthStage at h
      split at h
      · cases h
      · rename_i f hf; cases h; exact .inr (.inl ⟨x, f, hx, hg, hf, rfl⟩)
    all_goals cases h; exact .inr (.inr (.inl ⟨x, hx, rfl⟩))
  · rename_i hx
    split at h
    · rename_i i hi; cases h; exact .inr (.inr (.inr (.inl ⟨hx, i, hi, rfl⟩)))
    · rename_i hi; cases h; exact .inr (.inr (.inr (.inr ⟨hx, hi, rfl⟩)))

/-- What an answer of the device does: the four stages that wait for one, and nothing elsewhere. -/
theorem deviceAnswer_cases {ok : Bool} {s t : State} (h : deviceAnswer ok s = .next t) :
    t = s ∨
    (∃ x, s.inflight = some x ∧ x.stage = .write ∧ Memory.filled s.buf s.total = true ∧
      t = (let u := logCall (.write (Memory.samples s.buf s.total) ok) s
        if ok then goTo .play x u else endTxn .write x u)) ∨
    (∃ x, s.inflight = some x ∧ x.stage = .play ∧ t = playStage ok x s) ∨
    (∃ x, s.inflight = some x ∧ x.stage = .stop ∧ t = stopStage ok x s) ∨
    (∃ x, s.inflight = some x ∧ x.stage = .reload ∧ t = reloadStage ok x s) := by
  unfold deviceAnswer at h
  split at h
  · cases h; exact .inl rfl
  · rename_i x hx
    split at h <;> rename_i hg
    · cases h; exact .inl rfl
    · cases h; exact .inl rfl
    · unfold writeStage at h
      split at h
      · rename_i hf; cases h; exact .inr (.inl ⟨x, hx, hg, hf, rfl⟩)
      · cases h
    · cases h; exact .inr (.inr (.inl ⟨x, hx, hg, rfl⟩))
    · cases h; exact .inl rfl
    · cases h; exact .inr (.inr (.inr (.inl ⟨x, hx, hg, rfl⟩)))
    · cases h; exact .inr (.inr (.inr (.inr ⟨x, hx, hg, rfl⟩)))

/-- A word of the host runs its command, or is answered as no command; nothing where a command waits. -/
theorem hostMove_cases {w : Word} {s t : State} (h : hostMove w s = .next t) :
    s.hostWaits = false ∧ ((∃ i, decode w = .ok i ∧ t = execState i s) ∨ (∃ e, decode w = .error e ∧ t = illegalWord s)) := by
  unfold hostMove at h
  split at h
  · cases h
  · rename_i hw
    refine ⟨by simpa using hw, ?_⟩
    split at h
    · rename_i i hi; rw [exec_eq] at h; cases h; exact .inl ⟨i, hi, rfl⟩
    · rename_i e he; cases h; exact .inr ⟨e, he, rfl⟩

/-- The end of a settle wait: the Stop stage, or nothing outside a Wait stage. -/
theorem endWait_cases (s : State) :
    (∃ x, s.inflight = some x ∧ x.stage = .wait ∧ endWait s = goTo .stop x s) ∨
    ((∀ x, s.inflight = some x → x.stage ≠ .wait) ∧ endWait s = s) := by
  unfold endWait
  split
  · rename_i k c hx; exact .inl ⟨_, hx, rfl, rfl⟩
  · rename_i hx
    refine .inr ⟨fun x hs hg => ?_, rfl⟩
    obtain ⟨g, k, c⟩ := x
    subst hg
    exact hx k c hs

/-- A tick starts the transaction of RKEY, or does nothing. -/
theorem tick_cases (s : State) :
    (∃ k, s.rpt = .repeating k ∧ s.due = true ∧ s.busy = false ∧ s.dev = .ready ∧
      tick s = beginTxn k .tick { s with due := false }) ∨ tick s = s := by
  unfold tick
  split
  · exact .inr rfl
  · rename_i k hk
    split_ifs with h
    · simp [State.tickEnabled] at h
      exact .inl ⟨k, hk, h.1.1.2, h.1.2, h.2, rfl⟩
    · exact .inr rfl

/-- The agent that moved in a step, with the state it moved in. -/
theorem step_cases {s t : State} (h : step s = .next t) :
    (s.moves = [] ∧ shell s = .next t) ∨
    ∃ m ms, s.moves = m :: ms ∧ act m { s with moves := ms } = .next t := by
  unfold step advance at h
  split at h
  · rename_i hm; exact .inl ⟨hm, h⟩
  · rename_i m ms hm; exact .inr ⟨m, ms, hm, h⟩

/-- All a step can do, by the move that makes it (`none` where no move is left) and the state `u` it is made in. -/
inductive StepEffect : Option Move → State → State → Prop
  | command {u : State} {w : Word} {i : Instr} (free : u.hostWaits = false) (word : decode w = .ok i) :
    StepEffect (some (.host w)) u (execState i u)
  | illegal {u : State} {w : Word} {e : DecodeError} (free : u.hostWaits = false) (word : decode w = .error e) :
    StepEffect (some (.host w)) u (illegalWord u)
  | encode {m : Option Move} {u : State} {x : Txn} (move : m = none ∨ m = some .shell)
    (flight : u.inflight = some x) (stage : x.stage = .encode) : StepEffect m u (encodeStage x u)
  | synth {m : Option Move} {u : State} {x : Txn} {f : Frame} (move : m = none ∨ m = some .shell)
    (flight : u.inflight = some x) (stage : x.stage = .synth) (frame : u.frame = some f) :
    StepEffect m u (goTo .write x (synthFrame f u))
  | resume {m : Option Move} {u : State} {i : Instr} (move : m = none ∨ m = some .shell)
    (flight : u.inflight = none) (held : u.held = some i) : StepEffect m u (resume i { u with held := none })
  | tick {m : Option Move} {u : State} {k : Key} (move : m = none ∨ m = some .shell ∨ m = some .tick)
    (rpt : u.rpt = .repeating k) (due : u.due = true) (flight : u.inflight = none) (dev : u.dev = .ready) :
    StepEffect m u (beginTxn k .tick { u with due := false })
  | still {m : Option Move} {u : State} (move : ∀ r, m ≠ some (.reset r)) : StepEffect m u u
  | expiry {u : State} {k : Key} (rpt : u.rpt = .repeating k) :
    StepEffect (some .repeatExpiry) u { u with due := true }
  | waitEnd {m : Option Move} {u : State} {x : Txn} (move : m = some .settleExpiry ∨ m = some .settleInterrupt)
    (flight : u.inflight = some x) (stage : x.stage = .wait) : StepEffect m u (goTo .stop x u)
  | write {u : State} {x : Txn} {ok : Bool} (flight : u.inflight = some x) (stage : x.stage = .write)
    (filled : Memory.filled u.buf u.total = true) :
    StepEffect (some (.answer ok)) u
      (if ok then goTo .play x (logCall (.write (Memory.samples u.buf u.total) ok) u)
        else endTxn .write x (logCall (.write (Memory.samples u.buf u.total) ok) u))
  | play {u : State} {x : Txn} {ok : Bool} (flight : u.inflight = some x) (stage : x.stage = .play) :
    StepEffect (some (.answer ok)) u (playStage ok x u)
  | stop {u : State} {x : Txn} {ok : Bool} (flight : u.inflight = some x) (stage : x.stage = .stop) :
    StepEffect (some (.answer ok)) u (stopStage ok x u)
  | reload {u : State} {x : Txn} {ok : Bool} (flight : u.inflight = some x) (stage : x.stage = .reload) :
    StepEffect (some (.answer ok)) u (reloadStage ok x u)
  | reset {u : State} {r : Startup} (admitted : r.admitted = true) :
    StepEffect (some (.reset r)) u (startUp u.tol u.moves r)

theorem tick_effect {m : Option Move} (s : State) (hm : m = none ∨ m = some .shell ∨ m = some .tick) :
    StepEffect m s (tick s) := by
  rcases tick_cases s with ⟨k, h1, h2, h3, h4, h⟩ | h
  · rw [h]; exact .tick hm h1 h2 (by simpa [State.busy] using h3) h4
  · rw [h]; exact .still (by rintro r rfl; simp at hm)

theorem shell_effect {m : Option Move} {s t : State} (hm : m = none ∨ m = some .shell) (h : shell s = .next t) :
    StepEffect m s t := by
  rcases shell_cases h with ⟨x, h1, h2, rfl⟩ | ⟨x, f, h1, h2, h3, rfl⟩ | ⟨x, h1, rfl⟩ | ⟨h1, i, h2, rfl⟩ | ⟨h1, h2, rfl⟩
  · exact .encode hm h1 h2
  · exact .synth hm h1 h2 h3
  · exact .still (by rintro r rfl; simp at hm)
  · exact .resume hm h1 h2
  · exact tick_effect s (hm.imp id .inl)

theorem act_effect {m : Move} {s t : State} (h : act m s = .next t) : StepEffect (some m) s t := by
  cases m with
  | host w =>
    obtain ⟨h0, ⟨i, hi, rfl⟩ | ⟨e, he, rfl⟩⟩ := hostMove_cases h
    · exact .command h0 hi
    · exact .illegal h0 he
  | shell => exact shell_effect (.inr rfl) h
  | tick => cases h; exact tick_effect s (.inr (.inr rfl))
  | repeatExpiry =>
    cases h
    unfold repeatExpiry
    split_ifs with hr
    · obtain ⟨k, hk⟩ : ∃ k, s.rpt = .repeating k := by
        revert hr; unfold State.repeats; rcases s.rpt with _ | k <;> simp
      exact .expiry hk
    · exact .still (by simp)
  | settleExpiry =>
    cases h
    rcases endWait_cases s with ⟨x, h1, h2, h⟩ | ⟨-, h⟩ <;> rw [h]
    · exact .waitEnd (.inl rfl) h1 h2
    · exact .still (by simp)
  | settleInterrupt =>
    cases h
    rcases endWait_cases s with ⟨x, h1, h2, h⟩ | ⟨-, h⟩ <;> rw [h]
    · exact .waitEnd (.inr rfl) h1 h2
    · exact .still (by simp)
  | answer ok =>
    rcases deviceAnswer_cases h with rfl | ⟨x, h1, h2, h3, rfl⟩ | ⟨x, h1, h2, rfl⟩ | ⟨x, h1, h2, rfl⟩ | ⟨x, h1, h2, rfl⟩
    · exact .still (by simp)
    · exact .write h1 h2 h3
    · exact .play h1 h2
    · exact .stop h1 h2
    · exact .reload h1 h2
  | reset r =>
    simp only [act, resetMove] at h
    split_ifs at h with hr
    cases h
    exact .reset hr

/-- Every next state of a step is one of the effects, made in `s` with its first move taken off the list. -/
theorem step_effect {s t : State} (h : step s = .next t) :
    StepEffect s.moves.head? { s with moves := s.moves.tail } t := by
  rcases step_cases h with ⟨hm, h⟩ | ⟨m, ms, hm, h⟩
  · have e : ({ s with moves := s.moves.tail } : State) = s := by
      obtain ⟨⟩ := s; simp only at hm; subst hm; rfl
    rw [e, hm]
    exact shell_effect (.inl rfl) h
  · rw [hm]
    exact act_effect h

end Sys2Proof.Machine
end

