-- ==== Sys2Proof/Tests/Slice0.lean ====
section
/-! SUPPORT. Tests from the spec's vectors (95_test_vectors.md) and its encoding tables, ill-formed terms the checks refuse, and
for every obligation that has hypotheses one theorem with values that meet them. -/

namespace Sys2Proof.Machine

/-! ### Small states -/

/-- A block at the lowest rate of the rules, 2049 Hz: one sample for a frame bit, eleven samples in BUF. -/
def tiny (d : StartupDevice) (ms : List Move) : State := startUp 0 ms ⟨2049, d, 0#1⟩

/-- A configured block. -/
def ready (ms : List Move) : State := tiny (.answers true) ms

/-- A block whose configure call failed. -/
def failed (ms : List Move) : State := tiny (.answers false) ms

/-- A block after SHUTDOWN. -/
def gone (ms : List Move) : State := { ready ms with dev := .released }

/-- A configured block with the frame of key 0x31. -/
def loaded (ms : List Move) : State := encodeKey 0x31#8 (ready ms)

/-- A block with a tick-driven transaction of key 0x31 before the stage `g`, its schedule running. -/
def sending (g : Stage) (ms : List Move) : State :=
  { loaded ms with rpt := .repeating 0x31#8, inflight := some ⟨g, 0x31#8, .tick⟩ }

/-- A block with a due activation of key 0x31. -/
def duty (ms : List Move) : State := { ready ms with rpt := .repeating 0x31#8, due := true }

/-- The next state of an outcome, or `s` where there is none. -/
def nextOr (s : State) : Host.Outcome State Fault Refusal → State
  | .next t => t
  | .fault _ => s
  | .refused _ => s

/-- The state after one step. -/
def after (s : State) : State := nextOr s (step s)

/-! ### Well-formedness: an ill-formed term for each check -/

theorem test_ill_formed_lines_are_refused :
    (Line.wellFormed ⟨.encode, some 256⟩ = false ∧ Line.wellFormed ⟨.encode, none⟩ = false) ∧
    (Line.wellFormed ⟨.transmit, some 256⟩ = false ∧ Line.wellFormed ⟨.startrepeat, none⟩ = false) ∧
    (Line.wellFormed ⟨.setpol, some 2⟩ = false ∧ Line.wellFormed ⟨.setpol, none⟩ = false) ∧
    (Line.wellFormed ⟨.synth, some 0⟩ = false ∧ Line.wellFormed ⟨.shutdown, some 1⟩ = false) := by decide

theorem test_well_formed_lines_stand_for_commands :
    Line.instr ⟨.encode, some 255⟩ = some (.encode 0xFF#8) ∧ Line.instr ⟨.synth, none⟩ = some .synth ∧
    Line.instr ⟨.setpol, some 1⟩ = some (.setpol 1#1) ∧ Line.instr ⟨.startrepeat, some 256⟩ = none := by decide

/-- The illegal words of 95_test_vectors.md section 2.2. -/
theorem test_illegal_words_match_no_pattern :
    ([0x1131, 0x2001, 0x3002, 0x30FF, 0x4F31, 0x6001, 0x0000, 0x0031, 0x7000, 0x8031, 0xFFFF] : List Word).all
      (fun w => !legalWord w) = true := by decide

/-! ### Decoding: words written out field by field (R71, R72, R76): op, z, imm8 -/

theorem test_decode_encode : decode (0b0001#4 ++ 0b0000#4 ++ 0b00110001#8) = .ok (.encode 0x31#8) := by decide
theorem test_decode_synth : decode (0b0010#4 ++ 0b0000#4 ++ 0b00000000#8) = .ok .synth := by decide
theorem test_decode_setpol : decode (0b0011#4 ++ 0b0000#4 ++ 0b00000001#8) = .ok (.setpol 1#1) := by decide
theorem test_decode_transmit : decode (0b0100#4 ++ 0b0000#4 ++ 0b10000000#8) = .ok (.transmit 0x80#8) := by decide
theorem test_decode_startrepeat : decode (0b0101#4 ++ 0b0000#4 ++ 0b00000001#8) = .ok (.startrepeat 0x01#8) := by decide
theorem test_decode_shutdown : decode (0b0110#4 ++ 0b0000#4 ++ 0b00000000#8) = .ok .shutdown := by decide
theorem test_decode_names_the_reason :
    decode (0b0100#4 ++ 0b1111#4 ++ 0b00110001#8) = .error .reservedBits ∧
    decode (0b0111#4 ++ 0b0000#4 ++ 0b00000000#8) = .error .unusedOperation ∧
    decode (0b0011#4 ++ 0b0000#4 ++ 0b00000010#8) = .error .operandNotAllowed := by decide

/-- The rows of spec/opcode_table.json, each by its `match` value. -/
theorem test_table_words :
    decodeTableWord 16 0x1000 = some (.encode 0#8) ∧ decodeTableWord 16 0x2000 = some .synth ∧
    decodeTableWord 16 0x3000 = some (.setpol 0#1) ∧ decodeTableWord 16 0x4000 = some (.transmit 0#8) ∧
    decodeTableWord 16 0x5000 = some (.startrepeat 0#8) ∧ decodeTableWord 16 0x6000 = some .shutdown := by decide

/-- A word placed with `withFetchWord` runs in the very next step from reset. -/
theorem test_placed_words_run :
    ([0x1000, 0x2000, 0x3001, 0x5031, 0x6000] : List Nat).map
      (fun w => (after (State.reset.withFetchWord 16 w)).responses) = [[.ok], [.noFrame], [.ok], [.ok], [.ok]] ∧
    (after (State.reset.withFetchWord 16 0x4031)).inflight = some ⟨.encode, 0x31#8, .host⟩ := by decide

/-! ### ENCODE -/

/-- Vector F1: FRAME and STATUS after ENCODE 0x31. -/
theorem test_encode_after_reset :
    (nextOr State.reset (exec (.encode 0x31#8) State.reset)).readCR 3 = 0x19D#32 ∧
    (nextOr State.reset (exec (.encode 0x31#8) State.reset)).readCR 0 = 0x12#32 := by decide

/-- Table 2.1: no bit set, all bits set, one bit set at either end. -/
theorem test_frames : [frameOf 0x00#8, frameOf 0xFF#8, frameOf 0x01#8, frameOf 0x80#8, frameOf 0x32#8] =
    [0x3FF#11, 0x201#11, 0x1FD#11, 0x0FF#11, 0x19B#11] := by decide

/-! ### SETPOL and SYNTH -/

/-- Vector T20 at its arrival: SETPOL is held while a transaction is in flight. -/
theorem test_setpol_is_held :
    (nextOr State.reset (exec (.setpol 1#1) (sending .wait []))).held = some (.setpol 1#1) ∧
    (nextOr State.reset (exec (.setpol 1#1) (sending .wait []))).pol = 0#1 := by decide

/-- Vector S9: SYNTH without a frame. -/
theorem test_synth_without_frame :
    (nextOr State.reset (exec .synth State.reset)).readCR 1 = 7#32 ∧
    (nextOr State.reset (exec .synth State.reset)).bv = false := by decide

/-- Vector F7 and R107: SYNTH writes index 10, the last of an eleven-sample buffer, and no index above. -/
theorem test_synth_fills_the_buffer :
    (nextOr State.reset (exec .synth (loaded []))).sampleRead 10 = .ok 0 ∧
    (nextOr State.reset (exec .synth (loaded []))).sampleRead 11 = .error .sampleReadRefused := by decide +kernel

/-- Table 2.3 for FS = 44100, at indices 1, 2, 20, 42. -/
theorem test_reference_sine_44100 :
    [phaseAt 44100 1, phaseAt 44100 2, phaseAt 44100 20, phaseAt 44100 42].map (sinRef 44100) =
      [23664, -32736, 13710, -20199] := by decide +kernel

/-- Vector S6: the exact comparison at one sixth of a turn, where 32767 * sin is 28377.05. -/
theorem test_exact_comparison : sineReaches 1 6 28377 = true ∧ sineReaches 1 6 28378 = false := by decide +kernel

/-- Vector S8: the tie at FS / 12 goes away from zero on both sides, and the peak is reached at FS / 4. -/
theorem test_ties_and_peak :
    [phaseAt 196632 1, phaseAt 196632 3, phaseAt 196632 7].map (sinRef 196632) = [16384, 32767, -16384] := by decide +kernel

/-- Program P2: words stored for samples 1 to 3 at 48000, with either polarity. -/
theorem test_stored_words :
    [1, 2, 3].map (fun i => BitVec.ofInt 16 (polSign 0#1 * sinq 0 48000 (phaseAt 48000 i))) = [0x6B79#16, 0x8B43#16, 0x1354#16] ∧
    [1, 2, 3].map (fun i => BitVec.ofInt 16 (polSign 1#1 * sinq 0 48000 (phaseAt 48000 i))) = [0x9487#16, 0x74BD#16, 0xECAC#16] := by
  decide +kernel

/-! ### TRANSMIT and the transaction -/

/-- Vector T8: TRANSMIT after a failed startup. -/
theorem test_transmit_without_device :
    (nextOr State.reset (exec (.transmit 0x31#8) (failed []))).responses = [.setup] ∧
    (nextOr State.reset (exec (.transmit 0x31#8) (failed []))).key = none := by decide

/-- Vector T19 at its arrival: the schedule goes at once, the command is held. -/
theorem test_transmit_cancels_while_held :
    (nextOr State.reset (exec (.transmit 0x32#8) (sending .wait []))).rpt = .idle ∧
    (nextOr State.reset (exec (.transmit 0x32#8) (sending .wait []))).held = some (.transmit 0x32#8) := by decide

/-- Vector T14: a failed write ends a tick-driven transaction, keeps the schedule and answers nobody. -/
theorem test_failed_write_keeps_the_schedule :
    (after (synthFrame 0x19D#11 (sending .write [.answer false]))).inflight = none ∧
    (after (synthFrame 0x19D#11 (sending .write [.answer false]))).err = .write ∧
    (after (synthFrame 0x19D#11 (sending .write [.answer false]))).rpt = .repeating 0x31#8 ∧
    (after (synthFrame 0x19D#11 (sending .write [.answer false]))).responses = [] := by decide +kernel

/-- Vector T23: an interruption ends the wait as an expiry does. -/
theorem test_interruption_is_no_error :
    after (sending .wait [.settleInterrupt]) = after (sending .wait [.settleExpiry]) ∧
    (after (sending .wait [.settleInterrupt])).inflight = some ⟨.stop, 0x31#8, .tick⟩ := by decide

/-! ### STARTREPEAT and the tick -/

/-- Vector T18: a new key takes the place of the old one. -/
theorem test_startrepeat_replaces_the_key :
    (nextOr State.reset (exec (.startrepeat 0x32#8) (duty []))).rpt = .repeating 0x32#8 ∧
    (nextOr State.reset (exec (.startrepeat 0x32#8) (duty []))).responses = [.ok] := by decide

/-- Vector T21: STARTREPEAT is not held. -/
theorem test_startrepeat_is_not_held :
    (nextOr State.reset (exec (.startrepeat 0x32#8) (sending .wait []))).held = none ∧
    (nextOr State.reset (exec (.startrepeat 0x32#8) (sending .wait []))).due = true := by decide

/-- Vector T13 at its start. -/
theorem test_tick_starts_the_repeated_key :
    (after (duty [.tick])).inflight = some ⟨.encode, 0x31#8, .tick⟩ ∧ (after (duty [.tick])).due = false := by decide

/-! ### SHUTDOWN and reset -/

/-- Vector T24. -/
theorem test_shutdown_releases :
    (nextOr State.reset (exec .shutdown (duty []))).readCR 0 = 0x30#32 ∧
    (nextOr State.reset (exec .shutdown (duty []))).devtrace = [.configure 2049 1 16 .staticBuffer true, .release] := by decide

/-- Vector T11: no release of a device that was never configured. -/
theorem test_shutdown_after_failed_startup :
    (nextOr State.reset (exec .shutdown (failed []))).devtrace = [.configure 2049 1 16 .staticBuffer false] := by decide

/-- Vector Z1. -/
theorem test_reset_registers :
    (List.range 13).map State.reset.readCR =
      [0x10#32, 0#32, 0#32, 0#32, 0#32, 44100#32, 16386#32, 8#32, 21#32, 231#32, 32767#32, 0#32, 0#32] := by decide

/-- Vectors Z2 and Z3. -/
theorem test_reset_inputs :
    [0, 4, 5, 8, 9].map (startUp 0 [] ⟨48000, .answers true, 1#1⟩).readCR = [0x10#32, 1#32, 48000#32, 23#32, 253#32] ∧
    [0, 1].map (startUp 0 [] ⟨44100, .answers false, 0#1⟩).readCR = [0x20#32, 1#32] := by decide

/-! ### The text form (R79 to R81) -/

theorem test_assemble_hexadecimal :
    assemble ['E', 'N', 'C', 'O', 'D', 'E', ' ', '0', 'x', '3', '1'] = .ok (.command (.encode 0x31#8)) := by decide

theorem test_assemble_decimal_and_comment :
    assemble ['S', 'T', 'A', 'R', 'T', 'R', 'E', 'P', 'E', 'A', 'T', ' ', '4', '9', ' ', ';', ' ', 'k'] =
      .ok (.command (.startrepeat 0x31#8)) := by decide

theorem test_assemble_refuses :
    assemble ['S', 'E', 'T', 'P', 'O', 'L', ' ', '2'] = .error .badOperand ∧
    assemble ['T', 'R', 'A', 'N', 'S', 'M', 'I', 'T', ' ', '2', '5', '6'] = .error .badOperand ∧
    assemble ['s', 'y', 'n', 't', 'h'] = .error .unknownMnemonic := by decide

/-- Program P3, step 2: CR4 = 1 gives SETPOL 0. -/
theorem test_togglepol : expand { ready [] with pol := 1#1 } .togglepol = [.setpol 0#1] := by decide

/-! ### Witnesses: values that meet the hypotheses of each obligation, clause by clause -/

theorem witness_DecodeAcceptsExactlyTheTable :
    decode 0x10FF#16 = .ok (.encode 0xFF#8) ∧ legalWord 0x3001#16 = true ∧ legalWord 0x3002#16 = false ∧
    (opcodeTable.any fun p => p.fits 0x6000#16) = true := by decide

theorem witness_DecodeTestsInOrder :
    (zField 0x1100#16 ≠ 0#4 ∧ zField 0xFFFF#16 ≠ 0#4) ∧
    (zField 0x0031#16 = 0#4 ∧ opField 0x0031#16 = 0#4 ∧ zField 0x7000#16 = 0#4 ∧ 0x7#4 ≤ opField 0x7000#16 ∧
      zField 0xF000#16 = 0#4 ∧ 0x7#4 ≤ opField 0xF000#16) ∧
    (zField 0x2001#16 = 0#4 ∧ opField 0x2001#16 = 0x2#4 ∧ immField 0x2001#16 ≠ 0#8 ∧
      zField 0x60FF#16 = 0#4 ∧ opField 0x60FF#16 = 0x6#4 ∧ immField 0x60FF#16 ≠ 0#8) ∧
    (zField 0x3002#16 = 0#4 ∧ opField 0x3002#16 = 0x3#4 ∧ 2#8 ≤ immField 0x3002#16) := by decide

theorem witness_StepRunsTheDecodedCommand :
    (ready [.host 0x1031#16]).moves = .host 0x1031#16 :: [] ∧ (ready [.host 0x1031#16]).hostWaits = false ∧
    decode 0x1031#16 = .ok (.encode 0x31#8) := by decide

/-- With no transaction in flight, and during a tick-driven one (vector T22). -/
theorem witness_IllegalWordIsOnlyAnswered :
    ((ready [.host 0x7000#16]).moves = .host 0x7000#16 :: [] ∧ (ready [.host 0x7000#16]).hostWaits = false ∧
      (ready [.host 0x7000#16]).dev ≠ .released) ∧
    ((sending .wait [.host 0x7000#16]).hostWaits = false ∧ (sending .wait [.host 0x7000#16]).dev ≠ .released) ∧
    legalWord 0x7000#16 = false := by decide

theorem witness_ReleasedAnswersEveryWord :
    ((gone [.host 0x0000#16]).moves = .host 0x0000#16 :: [] ∧ (gone [.host 0x0000#16]).hostWaits = false ∧
      (gone [.host 0x0000#16]).dev = .released) ∧
    (gone [.tick]).dev = .released ∧ (gone [.tick]).noReset ∧ step (gone [.tick]) = .next (after (gone [.tick])) :=
  ⟨by decide, rfl, nofun, rfl⟩

theorem witness_StepRefusesOnlyOverlapAndRate :
    (loaded [.host 0x1031#16]).moves.head? = some (.host 0x1031#16) ∧
    ({ loaded [.host 0x1031#16] with held := some .synth } : State).hostWaits = true ∧
    (2048 < 2049 ∨ 2 ^ 32 ≤ 2048) ∧ (2 ^ 32 < 2049 ∨ 2 ^ 32 ≤ 2 ^ 32) ∧
    step (ready [.reset ⟨2048, .absent, 0#1⟩]) = .refused .sampleRateOutsideRules :=
  ⟨rfl, rfl, by decide, by decide, rfl⟩

theorem witness_EncodeLoadsKeyAndFrame :
    ((failed []).dev ≠ .released ∧ (failed []).busy = false) ∧
    ((sending .play []).dev ≠ .released ∧ (sending .play []).busy = true) ∧ (gone []).dev = .released := by decide

theorem witness_FrameLayout : 7 < 8 := by decide

theorem witness_FramesAreInjectiveAndOdd : frameOf 0x31#8 = frameOf (BitVec.ofNat 8 49) := by decide

theorem witness_SetpolSetsThePolarity :
    ((ready []).dev ≠ .released ∧ (ready []).busy = false) ∧
    ((sending .write []).dev ≠ .released ∧ (sending .write []).busy = true) ∧ (gone []).dev = .released := by decide

theorem witness_SynthWithoutAFrame :
    ((ready []).dev ≠ .released ∧ (ready []).busy = false ∧ (ready []).fv = false) ∧
    ((sending .stop []).dev ≠ .released ∧ (sending .stop []).busy = true) ∧ (gone []).dev = .released := by decide

/-- The hypotheses, and an index on each side of TOTAL. -/
theorem witness_SynthWritesEverySample :
    (loaded []).dev ≠ .released ∧ (loaded []).busy = false ∧ (loaded []).frame = some 0x19D#11 ∧
    10 < (loaded []).total ∧ (loaded []).total ≤ 11 := by decide

theorem witness_SegmentsOwnEqualSamples :
    (1 ≤ 21 ∧ 10 < 11) ∧ (10 * 21 ≤ 230 ∧ 230 < (10 + 1) * 21) ∧ bitIndex 21 230 = 10 ∧ ¬ (230 + 1 < 11 * 21) := by decide

theorem witness_PolarityNegatesEverySample :
    (loaded []).dev ≠ .released ∧ (loaded []).busy = false ∧ (loaded []).frame = some 0x19D#11 ∧ 10 < (loaded []).total := by
  decide

/-- Frames 0x19D and 0x19B: bit 0 agrees and is 1, bit 5 agrees and is 0. -/
theorem witness_SamplesFollowTheFrameBit :
    (0x19D#11).getLsbD (bitIndex (ready []).spb 0) = true ∧ (0x19D#11).getLsbD (bitIndex (ready []).spb 5) = false ∧
    (0x19D#11).getLsbD (bitIndex (ready []).spb 5) = (0x19B#11).getLsbD (bitIndex (ready []).spb 5) := by decide

theorem witness_PhaseProductsAreBounded :
    (1 ≤ 2049 ∧ 10 < Config.NBITS * Config.samplesPerBit 2049) ∧
    (1 ≤ 44100 ∧ 230 < Config.NBITS * Config.samplesPerBit 44100) := by decide

theorem witness_SineUnitKeepsItsProperties : (1 ≤ 2 ∧ 1 < 2 ∧ 2 ∣ 2) ∧ (1 ≤ 44100 ∧ 44099 < 44100) := by decide

theorem witness_LookupTableIsExact : 1 ≤ 44100 ∧ 7349 < tableSize 44100 ∧ tableSize 44100 = 7350 := by decide

/-- The last phase of a rate, and a phase of a rate near 2^32. -/
theorem witness_ReferenceIsTheRoundedSine : (1 ≤ 44100 ∧ 44099 < 44100) ∧ (1 ≤ 4294967295 ∧ 16386 < 4294967295) := by decide

/-- The last index at 44100 Hz, and the first at 48000 Hz with the other polarity. -/
theorem witness_SamplesAreExactAtEveryRate :
    (State.reset.tol = 0 ∧ 1 ≤ State.reset.fs ∧ 230 < 11 * State.reset.spb ∧
      (0x7FF#11).getLsbD (230 / State.reset.spb) = true) ∧
    ((startUp 0 [] ⟨48000, .absent, 1#1⟩).tol = 0 ∧ 1 ≤ (startUp 0 [] ⟨48000, .absent, 1#1⟩).fs ∧
      0 < 11 * (startUp 0 [] ⟨48000, .absent, 1#1⟩).spb ∧
      (0x19D#11).getLsbD (0 / (startUp 0 [] ⟨48000, .absent, 1#1⟩).spb) = true) := by decide

theorem witness_BufferReadsBackAsTheFrame :
    (State.reset.dev ≠ .released ∧ State.reset.busy = false ∧ State.reset.tol = 0 ∧ State.reset.fs = 44100 ∧
      State.reset.spb = Config.samplesPerBit State.reset.fs ∧ State.reset.total = 11 * State.reset.spb) ∧
    (startUp 0 [] ⟨48000, .absent, 1#1⟩).fs = 48000 := by decide

theorem witness_SamplesPerBitIsTheFloor : 2049 ≤ 2049 ∧ Config.samplesPerBit 2049 = 1 := by decide

theorem witness_BufferFitsTheSettleWait : 1 ≤ 1 := by decide

theorem witness_TransmitArrives :
    ((ready []).dev = .ready ∧ (ready []).busy = false) ∧ ((sending .wait []).dev ≠ .released ∧ (sending .wait []).busy = true) ∧
    ((failed []).dev = .failed ∧ (failed []).busy = false) ∧ (gone []).dev = .released := by decide

theorem witness_TransmitSendsOneFrame :
    (ready (.host 0x4031#16 :: transactionMoves true true false true)).dev = .ready ∧
    (ready (.host 0x4031#16 :: transactionMoves true true false true)).busy = false ∧
    (ready (.host 0x4031#16 :: transactionMoves true true false true)).held = none ∧
    (ready (.host 0x4031#16 :: transactionMoves true true false true)).moves =
      .host (encode (.transmit 0x31#8)) :: (transactionMoves true true false true ++ []) := by decide

theorem witness_TickSendsTheRepeatedKey :
    (duty (.tick :: transactionMoves false true true true)).dev = .ready ∧
    (duty (.tick :: transactionMoves false true true true)).busy = false ∧
    (duty (.tick :: transactionMoves false true true true)).rpt = .repeating 0x31#8 ∧
    (duty (.tick :: transactionMoves false true true true)).due = true ∧
    (duty (.tick :: transactionMoves false true true true)).moves =
      .tick :: (transactionMoves false true true true ++ []) := by decide

theorem witness_ModulateLeavesTheTransmittedSamples : (failed []).dev ≠ .released ∧ (failed []).busy = false := by decide

theorem witness_OneTransactionAtATime :
    (sending .wait [.settleExpiry]).inflight = some ⟨.wait, 0x31#8, .tick⟩ ∧ (sending .wait [.settleExpiry]).noReset ∧
    step (sending .wait [.settleExpiry]) = .next (after (sending .wait [.settleExpiry])) := ⟨rfl, nofun, rfl⟩

theorem witness_WaitEndsEitherWay :
    ((sending .wait [.settleExpiry]).moves = .settleExpiry :: [] ∧
      ∃ x : Txn, (sending .wait [.settleExpiry]).inflight = some x ∧ x.stage = .wait) ∧
    ((ready [.settleInterrupt]).moves = .settleInterrupt :: [] ∧
      ∀ x : Txn, (ready [.settleInterrupt]).inflight = some x → x.stage ≠ .wait) := ⟨⟨rfl, _, rfl, rfl⟩, rfl, nofun⟩

/-- A held SETPOL with the schedule running, and a held TRANSMIT after its Cancel. -/
theorem witness_HeldCommandRunsAfterTheTransaction :
    (({ duty [.shell] with held := some (.setpol 1#1) } : State).moves = .shell :: [] ∧
      ({ duty [.shell] with held := some (.setpol 1#1) } : State).busy = false ∧
      ({ duty [.shell] with held := some (.setpol 1#1) } : State).dev ≠ .released ∧ cancelling (.setpol 1#1) = false) ∧
    (cancelling (.transmit 0x32#8) = true ∧ ({ ready [.shell] with held := some (.transmit 0x32#8) } : State).rpt = .idle ∧
      ({ ready [.shell] with held := some (.transmit 0x32#8) } : State).due = false) := by decide

/-- The first clause also while a transaction is in flight. -/
theorem witness_StartrepeatArmsTheSchedule :
    ((ready []).dev = .ready ∧ (sending .wait []).dev = .ready ∧ (sending .wait []).busy = true) ∧
    (failed []).dev = .failed ∧ (gone []).dev = .released := by decide

theorem witness_RepeatExpirySetsDue :
    ((duty [.repeatExpiry]).moves = .repeatExpiry :: [] ∧ (duty [.repeatExpiry]).rpt = .repeating 0x31#8) ∧
    ((ready [.repeatExpiry]).moves = .repeatExpiry :: [] ∧ (ready [.repeatExpiry]).rpt = .idle) := by decide

theorem witness_TickStartsOnlyWhenEnabled :
    ((duty [.tick]).moves = .tick :: [] ∧ (duty [.tick]).rpt = .repeating 0x31#8 ∧ (duty [.tick]).due = true ∧
      (duty [.tick]).busy = false ∧ (duty [.tick]).dev = .ready) ∧
    ((ready [.tick]).rpt = .idle ∧ (sending .wait [.tick]).due = false ∧ (sending .wait [.tick]).busy = true ∧
      (gone [.tick]).dev ≠ .ready) := by decide

/-- A key of the host ends a schedule; a held STARTREPEAT stands only in states that no run reaches. -/
theorem witness_RepeatChangesOnlyByKeyCommands :
    ((duty [.host 0x4032#16]).noReset ∧ step (duty [.host 0x4032#16]) = .next (after (duty [.host 0x4032#16])) ∧
      (after (duty [.host 0x4032#16])).rpt ≠ (duty [.host 0x4032#16]).rpt) ∧
    ((after { ready [.shell] with held := some (.startrepeat 0x31#8) }).rpt = .repeating 0x31#8) :=
  ⟨⟨nofun, rfl, by decide⟩, by decide⟩

theorem witness_TickAndCommandInEitherOrder :
    (duty []).dev = .ready ∧ (duty []).busy = false ∧ (duty []).held = none ∧ (duty []).rpt = .repeating 0x31#8 ∧
    (duty []).due = true := by decide

theorem witness_ShutdownReleasesTheDevice :
    ((ready []).dev = .ready ∧ (ready []).busy = false) ∧ ((failed []).dev = .failed ∧ (failed []).busy = false) ∧
    ((sending .reload []).dev ≠ .released ∧ (sending .reload []).busy = true) ∧ (gone []).dev = .released := by decide

/-- The state after SHUTDOWN. -/
theorem witness_ReleaseStandsAtMostOnce :
    (after (ready [.host 0x6000#16])).ControlInv ∧ (after (ready [.host 0x6000#16])).TraceInv ∧
    DevCall.release ∈ (after (ready [.host 0x6000#16])).devtrace :=
  ⟨⟨by decide, by decide, by decide, by decide, by decide, by decide, nofun, nofun, nofun, nofun⟩,
    ⟨by decide, by decide, by decide⟩, by decide⟩

/-- With an error on record, and with none where the step raises one. -/
theorem witness_FirstErrorIsKept :
    ((failed [.host 0x2000#16]).noReset ∧ step (failed [.host 0x2000#16]) = .next (after (failed [.host 0x2000#16])) ∧
      (failed [.host 0x2000#16]).err ≠ .ok) ∧
    ((ready [.host 0x2000#16]).noReset ∧ step (ready [.host 0x2000#16]) = .next (after (ready [.host 0x2000#16])) ∧
      (ready [.host 0x2000#16]).err = .ok ∧ (after (ready [.host 0x2000#16])).err ≠ .ok) :=
  ⟨⟨nofun, rfl, by decide⟩, nofun, rfl, by decide⟩

theorem witness_ConfigurationIsConstant :
    ((ready [.host 0x1031#16]).noReset ∧ step (ready [.host 0x1031#16]) = .next (after (ready [.host 0x1031#16]))) ∧
    ((gone [.reset ⟨48000, .absent, 0#1⟩]).moves = .reset ⟨48000, .absent, 0#1⟩ :: [] ∧
      step (gone [.reset ⟨48000, .absent, 0#1⟩]) = .next (after (gone [.reset ⟨48000, .absent, 0#1⟩]))) :=
  ⟨⟨nofun, rfl⟩, rfl, rfl⟩

/-- A SETPOL of the host, and one that was held. -/
theorem witness_PolarityChangesOnlyBySetpol :
    ((ready [.host 0x3001#16]).noReset ∧ step (ready [.host 0x3001#16]) = .next (after (ready [.host 0x3001#16])) ∧
      (after (ready [.host 0x3001#16])).pol ≠ (ready [.host 0x3001#16]).pol) ∧
    (after { ready [.shell] with held := some (.setpol 1#1) }).pol ≠ (ready [.shell]).pol :=
  ⟨⟨nofun, rfl, by decide⟩, by decide⟩

theorem witness_MemoryChangesOnlyBySynth :
    (loaded [.host 0x2000#16]).noReset ∧ step (loaded [.host 0x2000#16]) = .next (after (loaded [.host 0x2000#16])) ∧
    (after (loaded [.host 0x2000#16])).buf ≠ (loaded [.host 0x2000#16]).buf :=
  ⟨nofun, rfl, by decide +kernel⟩

/-- An answer in each of the four stages, SHUTDOWN of the host, and a held one. -/
theorem witness_DeviceCallsOnlyInTheirStages :
    ((sending .play [.answer true]).noReset ∧
      step (sending .play [.answer true]) = .next (after (sending .play [.answer true])) ∧
      (after (sending .play [.answer true])).devtrace ≠ (sending .play [.answer true]).devtrace) ∧
    (after (synthFrame 0x19D#11 (sending .write [.answer true]))).devtrace ≠
      (synthFrame 0x19D#11 (sending .write [.answer true])).devtrace ∧
    (after (sending .stop [.answer false])).devtrace ≠ (sending .stop [.answer false]).devtrace ∧
    (after (sending .reload [.answer true])).devtrace ≠ (sending .reload [.answer true]).devtrace ∧
    (after (ready [.host 0x6000#16])).devtrace ≠ (ready [.host 0x6000#16]).devtrace ∧
    (after { ready [.shell] with held := some .shutdown }).devtrace ≠ (ready [.shell]).devtrace :=
  ⟨⟨nofun, rfl, by decide⟩, by decide +kernel, by decide, by decide, by decide, by decide⟩

/-- A command, and a reset. -/
theorem witness_StepTakesOneMoveAndAnswersAtMostOnce :
    (step (ready [.host 0x1031#16]) = .next (after (ready [.host 0x1031#16])) ∧ (ready [.host 0x1031#16]).noReset) ∧
    (step (gone [.reset ⟨48000, .absent, 0#1⟩]) = .next (after (gone [.reset ⟨48000, .absent, 0#1⟩])) ∧
      (gone [.reset ⟨48000, .absent, 0#1⟩]).moves.head? = some (.reset ⟨48000, .absent, 0#1⟩)) :=
  ⟨⟨rfl, nofun⟩, rfl, rfl⟩

/-- The lowest and the highest rate. -/
theorem witness_ResetSequence :
    (gone [.reset ⟨2049, .answers true, 1#1⟩]).moves = .reset ⟨2049, .answers true, 1#1⟩ :: [] ∧
    (2049 ≤ 2049 ∧ 2049 < 2 ^ 32) ∧ (2049 ≤ 2 ^ 32 - 1 ∧ 2 ^ 32 - 1 < 2 ^ 32) := by decide

theorem witness_RegisterReadPort :
    (ready []).fv = false ∧ ((loaded []).key = some 0x31#8 ∧ (loaded []).frame = some 0x19D#11) ∧ (ready []).rpt = .idle ∧
    (duty []).rpt = .repeating 0x31#8 ∧ 11 < 12 := by decide

/-- A state that meets `BufferInv` with BV = 1, an index of BUF and the first index above it. -/
theorem witness_SampleReadPort :
    (ready []).bv = false ∧ (ready []).total ≤ 11 ∧
    ((synthFrame 0x19D#11 (loaded [])).bv = true ∧ 10 < (synthFrame 0x19D#11 (loaded [])).total ∧
      Memory.read (synthFrame 0x19D#11 (loaded [])).buf 10 = some 0#16) ∧ (synthFrame 0x19D#11 (loaded [])).BufferInv :=
  ⟨by decide, by decide, by decide +kernel, ⟨by decide +kernel, by decide +kernel, by decide +kernel, by decide +kernel,
    by decide +kernel, by decide⟩⟩

/-- A step from a state with a full buffer, and one that fills it. -/
theorem witness_BufferInvariantIsKept :
    ((synthFrame 0x19D#11 (loaded [])).BufferInv ∧
      step (synthFrame 0x19D#11 (loaded [])) = .next (after (synthFrame 0x19D#11 (loaded [])))) ∧
    ((loaded [.host 0x2000#16]).BufferInv ∧ step (loaded [.host 0x2000#16]) = .next (after (loaded [.host 0x2000#16]))) :=
  ⟨⟨witness_SampleReadPort.2.2.2, rfl⟩, ⟨by decide, by decide, by decide, by decide, by decide, by decide⟩, rfl⟩

theorem witness_EncodeInvariantIsKept :
    (ready [.host 0x1031#16]).EncodeInv ∧ (ready [.host 0x1031#16]).RateInv ∧
    step (ready [.host 0x1031#16]) = .next (after (ready [.host 0x1031#16])) :=
  ⟨rfl, ⟨by decide, by decide⟩, rfl⟩

/-- A key command arrives during a tick-driven transaction. -/
theorem witness_ControlInvariantIsKept :
    (sending .wait [.host 0x4032#16]).ControlInv ∧
    step (sending .wait [.host 0x4032#16]) = .next (after (sending .wait [.host 0x4032#16])) := by
  refine ⟨⟨by decide, by decide, by decide, by decide, by decide, by decide, fun h => absurd rfl h, nofun, nofun, ?_⟩, rfl⟩
  intro t ht hs
  cases ht
  cases hs

/-- A Write stage with the samples of its key in the buffer, and the Synth stage that fills it. -/
theorem witness_TransactionInvariantIsKept :
    ((sending .synth []).TxnInv ∧ step (sending .synth []) = .next (after (sending .synth []))) ∧
    (after (sending .synth [])).inflight = some ⟨.write, 0x31#8, .tick⟩ ∧
    (∀ i < (after (sending .synth [])).total, Memory.read (after (sending .synth [])).buf i =
      some (BitVec.ofInt 16 (sampleValue (after (sending .synth [])) (frameOf 0x31#8) i))) := by
  refine ⟨⟨⟨fun t ht _ => ?_, fun t ht hg => ?_⟩, rfl⟩, rfl, by decide +kernel⟩
  · cases ht; exact ⟨rfl, by decide⟩
  · cases ht; cases hg

theorem witness_TraceInvariantIsKept :
    (ready [.host 0x6000#16]).ControlInv ∧ (ready [.host 0x6000#16]).TraceInv ∧
    step (ready [.host 0x6000#16]) = .next (after (ready [.host 0x6000#16])) :=
  ⟨⟨by decide, by decide, by decide, by decide, by decide, by decide, nofun, nofun, nofun, nofun⟩,
    ⟨by decide, by decide, by decide⟩, rfl⟩

theorem witness_ResetMeetsTheInvariant :
    (Startup.mk 2049 .absent 0#1).admitted = true ∧ (Startup.mk (2 ^ 32 - 1) (.answers false) 1#1).admitted = true := by decide

theorem witness_NoFaultUnderTheInvariant : (sending .synth []).TxnInv := witness_TransactionInvariantIsKept.1.1

end Sys2Proof.Machine
end

namespace Sys2Proof.Machine

/-! ### FRAME beside KEY, and FS, over every step (O54) -/

/-- From `s` to `t`, KEY and FRAME are either both untouched or both the result of one encode (R94, R132). -/
def KeepsOrEncodes (s t : State) : Prop :=
  (t.key = s.key ∧ t.frame = s.frame) ∨ ∃ k, t.key = some k ∧ t.frame = some (frameOf k)

/-- A frame belongs to its key after an encode, and where neither changes. -/
theorem KeepsOrEncodes.encodeInv {s t : State} (h : KeepsOrEncodes s t) (hs : s.EncodeInv) : t.EncodeInv := by
  rcases h with ⟨hk, hf⟩ | ⟨k, hk, hf⟩
  · rw [State.EncodeInv, hk, hf, hs]
  · rw [State.EncodeInv, hk, hf, Option.map_some]

theorem execState_keepsOrEncodes (i : Instr) (s : State) : KeepsOrEncodes s (execState i s) := by
  unfold execState
  split
  case isTrue => exact .inl ⟨rfl, rfl⟩
  case isFalse =>
    cases i with
    | encode k =>
      dsimp only
      split
      · exact .inl ⟨rfl, rfl⟩
      · exact .inr ⟨k, rfl, rfl⟩
    | startrepeat k => exact .inl (by simp)
    | synth | setpol b | transmit k | shutdown => exact .inl (by dsimp only; split <;> simp)

theorem resume_keepsOrEncodes (i : Instr) (s : State) : KeepsOrEncodes s (resume i s) := by
  cases i with
  | encode k => exact .inr ⟨k, rfl, rfl⟩
  | synth | setpol b | transmit k | startrepeat k | shutdown => exact .inl (by simp [resume])

/-- A command never changes the sample rate (R37). -/
@[simp] theorem execState_fs (i : Instr) (s : State) : (execState i s).fs = s.fs := by
  cases i <;> simp only [execState] <;> repeat' split
  all_goals simp

/-- A held command never changes the sample rate (R37). -/
@[simp] theorem resume_fs (i : Instr) (s : State) : (resume i s).fs = s.fs := by
  cases i <;> simp [resume]

/-- All a step does to KEY and FRAME: it keeps both, encodes a key, or is a reset, after which neither holds a value. -/
theorem StepEffect.key_frame {m : Option Move} {u t : State} (h : StepEffect m u t) :
    KeepsOrEncodes u t ∨ (t.key = none ∧ t.frame = none) := by
  cases h with
  | command => exact .inl (execState_keepsOrEncodes _ u)
  | encode => exact .inl (.inr ⟨_, encodeStage_key _ u, encodeStage_frame _ u⟩)
  | @resume i _ _ _ => exact .inl (resume_keepsOrEncodes _ { u with held := none })
  | reset => exact .inr ⟨rfl, rfl⟩
  | write => exact .inl (.inl (by split <;> simp))
  | illegal | synth | tick | still | expiry | waitEnd | play | stop | reload => exact .inl (.inl (by simp [synthFrame]))

/-- All a step does to FS: it keeps it, or is a reset with an admitted rate (R37, R181). -/
theorem StepEffect.fs_eq {m : Option Move} {u t : State} (h : StepEffect m u t) :
    t.fs = u.fs ∨ ∃ r, m = some (.reset r) ∧ r.admitted = true ∧ t.fs = r.fs := by
  cases h with
  | reset admitted => exact .inr ⟨_, rfl, admitted, rfl⟩
  | write => exact .inl (by split <;> simp)
  | command | illegal | encode | synth | resume | tick | still | expiry | waitEnd | play | stop | reload =>
    exact .inl (by simp [synthFrame])

theorem StepEffect.encodeInv {m : Option Move} {u t : State} (h : StepEffect m u t) (hu : u.EncodeInv) : t.EncodeInv := by
  rcases h.key_frame with hke | ⟨hk, hf⟩
  · exact hke.encodeInv hu
  · rw [State.EncodeInv, hk, hf, Option.map_none]

/-- An admitted rate is one the invariant speaks of (R8, R34). -/
theorem admitted_iff (r : Startup) : r.admitted = true ↔ 2049 ≤ r.fs ∧ r.fs < 2 ^ 32 := by
  simp [Startup.admitted]

theorem StepEffect.rateInv {m : Option Move} {u t : State} (h : StepEffect m u t) (hu : u.RateInv) : t.RateInv := by
  rcases h.fs_eq with hfs | ⟨r, -, hr, hfs⟩
  · rwa [State.RateInv, hfs]
  · rw [State.RateInv, hfs]
    exact (admitted_iff r).1 hr

/-- Settles O54, from what a step can do to KEY and FRAME and to FS. -/
theorem encodeInvariantIsKept : Obligations.EncodeInvariantIsKept := by
  intro s t hencode hrate hstep
  have heffect := step_effect hstep
  exact ⟨heffect.encodeInv hencode, heffect.rateInv hrate⟩

/-! ### Samples per bit (O27) -/

/-- SPB is the floor of the rational quotient, rounded once (R10). -/
theorem samplesPerBit_eq_floor (fs : Nat) : (Config.samplesPerBit fs : ℤ) = ⌊(8 : ℚ) * fs / 16386⌋ := by
  have hfloor := Rat.floor_natCast_div_natCast (8 * fs) 16386
  push_cast at hfloor
  simp [hfloor, Config.samplesPerBit, Config.PERIODS, Config.FC]

/-- PERIODS times twice the exact multiplier is the same rational (R9). -/
theorem eight_mul_two_mul_multiplier (fs : Nat) : 8 * 2 * Config.multiplier fs = (8 : ℚ) * fs / 16386 := by
  simp only [Config.multiplier, Config.FC]
  ring

/-- At an admitted rate every bit has a sample: 8 * 2049 = 16392, just above FC (R8). -/
theorem one_le_samplesPerBit {fs : Nat} (h : 2049 ≤ fs) : 1 ≤ Config.samplesPerBit fs := by
  simp only [Config.samplesPerBit, Config.PERIODS, Config.FC]
  omega

/-- Settles O27, by the floor of a quotient of naturals. -/
theorem samplesPerBitIsTheFloor : Obligations.SamplesPerBitIsTheFloor := by
  intro fs
  refine ⟨samplesPerBit_eq_floor fs, ?_, one_le_samplesPerBit, by decide, by decide⟩
  rw [eight_mul_two_mul_multiplier, samplesPerBit_eq_floor]

end Sys2Proof.Machine

namespace Sys2Proof.Machine

/-! ### A command as its arrival and its run -/

/-- What a command does at its arrival, before it may have to wait: a cancelling one cancels (R136, R143). -/
def arrive (i : Instr) (s : State) : State := if cancelling i then cancel s else s

@[simp] theorem arrive_pol (i : Instr) (s : State) : (arrive i s).pol = s.pol := by
  unfold arrive; split <;> rfl
@[simp] theorem arrive_buf (i : Instr) (s : State) : (arrive i s).buf = s.buf := by
  unfold arrive; split <;> rfl
@[simp] theorem arrive_bv (i : Instr) (s : State) : (arrive i s).bv = s.bv := by
  unfold arrive; split <;> rfl
@[simp] theorem arrive_dev (i : Instr) (s : State) : (arrive i s).dev = s.dev := by
  unfold arrive; split <;> rfl
@[simp] theorem arrive_err (i : Instr) (s : State) : (arrive i s).err = s.err := by
  unfold arrive; split <;> rfl
@[simp] theorem arrive_fs (i : Instr) (s : State) : (arrive i s).fs = s.fs := by
  unfold arrive; split <;> rfl
@[simp] theorem arrive_spb (i : Instr) (s : State) : (arrive i s).spb = s.spb := by
  unfold arrive; split <;> rfl
@[simp] theorem arrive_total (i : Instr) (s : State) : (arrive i s).total = s.total := by
  unfold arrive; split <;> rfl
@[simp] theorem arrive_inflight (i : Instr) (s : State) : (arrive i s).inflight = s.inflight := by
  unfold arrive; split <;> rfl
@[simp] theorem arrive_held (i : Instr) (s : State) : (arrive i s).held = s.held := by
  unfold arrive; split <;> rfl
@[simp] theorem arrive_devtrace (i : Instr) (s : State) : (arrive i s).devtrace = s.devtrace := by
  unfold arrive; split <;> rfl
@[simp] theorem arrive_responses (i : Instr) (s : State) : (arrive i s).responses = s.responses := by
  unfold arrive; split <;> rfl
@[simp] theorem arrive_busy (i : Instr) (s : State) : (arrive i s).busy = s.busy := by
  simp [State.busy]

/-- All a command can do (R136, R162): it is refused after SHUTDOWN, or it arrives and waits behind a transaction, or it
arrives and runs, as a held one does; STARTREPEAT runs also during a transaction. -/
inductive CommandEffect (i : Instr) (s : State) : State → Prop
  | released (dev : s.dev = .released) : CommandEffect i s (raise .released true s)
  | waits (dev : s.dev ≠ .released) (busy : s.busy = true) (kind : ∀ k, i ≠ .startrepeat k) :
    CommandEffect i s (hold i (arrive i s))
  | runs (dev : s.dev ≠ .released) (free : s.busy = false ∨ ∃ k, i = .startrepeat k) :
    CommandEffect i s (resume i (arrive i s))

theorem execState_effect (i : Instr) (s : State) : CommandEffect i s (execState i s) := by
  unfold execState
  split
  case isTrue hdev => exact .released hdev
  case isFalse hdev =>
    cases i with
    | startrepeat k => exact .runs hdev (.inr ⟨k, rfl⟩)
    | encode | synth | setpol | transmit | shutdown =>
      dsimp only
      split
      case isTrue hbusy => exact .waits hdev hbusy nofun
      case isFalse hbusy => exact .runs hdev (.inl (by simpa using hbusy))

/-! ### The next move as a step (O5) -/

/-- A step whose list of moves begins with `m` is that move, in the state with `m` taken off. -/
theorem step_of_moves_cons {s : State} {m : Move} {ms : List Move} (h : s.moves = m :: ms) :
    step s = act m { s with moves := ms } := by
  unfold step advance
  rw [h]

/-- A reset runs the reset sequence in any state, and is refused for its rate alone (R180, R181). -/
theorem step_of_reset {s : State} {r : Startup} {ms : List Move} (h : s.moves = .reset r :: ms) :
    step s = if r.admitted then .next (startUp s.tol ms r) else .refused .sampleRateOutsideRules :=
  step_of_moves_cons h

/-- Settles O5: the next move is the word, and the word is the command. -/
theorem stepRunsTheDecodedCommand : Obligations.StepRunsTheDecodedCommand := by
  intro s w ms i hmoves hfree hword
  have hfree' : ({ s with moves := ms } : State).hostWaits = false := hfree
  rw [step_of_moves_cons hmoves]
  simp only [act, hostMove, hfree', hword]
  rfl

/-! ### The sample memory over every step (O53) -/

theorem cut_amax_bounds (v : Int) : -32767 ≤ cut Config.AMAX v ∧ cut Config.AMAX v ≤ 32767 :=
  ⟨neg_le_cut Config.AMAX v, cut_le Config.AMAX v⟩

theorem halfReference_bounds (fs h : Nat) : -32767 ≤ halfReference fs h ∧ halfReference fs h ≤ 32767 := by
  unfold halfReference
  split
  · decide
  · exact cut_amax_bounds _

theorem halfUnit_bounds (tol fs h : Nat) : -32767 ≤ halfUnit tol fs h ∧ halfUnit tol fs h ≤ 32767 := by
  unfold halfUnit
  split
  · decide
  · exact cut_amax_bounds _

/-- Odd symmetry keeps a symmetric range. -/
theorem oddFold_bounds {f : Nat → Int} (hf : ∀ h, -32767 ≤ f h ∧ f h ≤ 32767) (fs p : Nat) :
    -32767 ≤ oddFold f fs p ∧ oddFold f fs p ≤ 32767 := by
  have hp := hf p
  have hrest := hf (fs - p)
  unfold oddFold
  split <;> omega

theorem sinq_bounds (tol fs p : Nat) : -32767 ≤ sinq tol fs p ∧ sinq tol fs p ≤ 32767 := by
  unfold sinq
  split
  · exact oddFold_bounds (halfReference_bounds fs) fs p
  · exact oddFold_bounds (halfUnit_bounds tol fs) fs p

/-- A sample is the sine unit's value with either sign, or 0 (R116). -/
theorem sampleValue_bounds (s : State) (f : Frame) (i : Nat) :
    -32767 ≤ sampleValue s f i ∧ sampleValue s f i ≤ 32767 := by
  have hsin := sinq_bounds s.tol s.fs (phaseAt s.fs i)
  unfold sampleValue
  split
  · rcases polSign_cases s.pol with hsign | hsign <;> rw [hsign] <;> omega
  · decide

/-- The word of a sample reads back as the sample (R118). -/
theorem toInt_ofInt_sampleValue (s : State) (f : Frame) (i : Nat) :
    (BitVec.ofInt 16 (sampleValue s f i)).toInt = sampleValue s f i := by
  obtain ⟨hlow, hhigh⟩ := sampleValue_bounds s f i
  exact BitVec.toInt_ofInt_eq_self (by decide) (by norm_num; omega) (by norm_num; omega)

theorem ofInt_sampleValue_ne_min (s : State) (f : Frame) (i : Nat) :
    BitVec.ofInt 16 (sampleValue s f i) ≠ 0x8000#16 := by
  intro hmin
  have hback := toInt_ofInt_sampleValue s f i
  have hlow := (sampleValue_bounds s f i).1
  rw [hmin, show (0x8000#16).toInt = -32768 by decide] at hback
  omega

theorem ne_min_of_mem_synthWords {s : State} {f : Frame} {w : Word} (h : w ∈ synthWords s f) : w ≠ 0x8000#16 := by
  obtain ⟨i, -, rfl⟩ := List.mem_map.1 h
  exact ofInt_sampleValue_ne_min s f i

/-- From `s` to `t` the sample memory and BV are untouched, or one SYNTH has filled the memory (R51, R103). -/
def KeepsOrFills (s t : State) : Prop :=
  (t.buf = s.buf ∧ t.bv = s.bv) ∨ ∃ f, t.buf = (synthFrame f s).buf ∧ t.bv = true

/-- From `s` to `t` the three numbers a reset loads are untouched (R37). -/
def KeepsSizes (s t : State) : Prop := t.fs = s.fs ∧ t.spb = s.spb ∧ t.total = s.total

theorem synthFrame_bufferInv {s : State} (hs : s.BufferInv) (f : Frame) : (synthFrame f s).BufferInv where
  sorted := Memory.writeFrom_wf hs.sorted 0 _
  inside c hc := by
    rcases Memory.mem_writeFrom hc with ⟨hlt, -⟩ | hc
    · simpa [synthFrame] using hlt
    · exact hs.inside c hc
  full _ := (Memory.filled_iff _ _).2 fun i hi => ⟨_, (read_synthFrame s f i).trans (if_pos hi)⟩
  empty := nofun
  range c hc := by
    rcases Memory.mem_writeFrom hc with ⟨-, hmem⟩ | hc
    · exact ne_min_of_mem_synthWords hmem
    · exact hs.range c hc
  counts := hs.counts

/-- The invariant of the sample memory speaks of BUF, BV, SPB and TOTAL alone. -/
theorem State.BufferInv.congr {s t : State} (hs : s.BufferInv) (hbuf : t.buf = s.buf) (hbv : t.bv = s.bv)
    (hspb : t.spb = s.spb) (htotal : t.total = s.total) : t.BufferInv where
  sorted := hbuf ▸ hs.sorted
  inside := by rw [hbuf, htotal]; exact hs.inside
  full := by rw [hbv, hbuf, htotal]; exact hs.full
  empty := by rw [hbv, hbuf]; exact hs.empty
  range := hbuf ▸ hs.range
  counts := by rw [hspb, htotal]; exact hs.counts

theorem KeepsOrFills.bufferInv {s t : State} (h : KeepsOrFills s t) (hsizes : KeepsSizes s t) (hs : s.BufferInv) :
    t.BufferInv := by
  obtain ⟨-, hspb, htotal⟩ := hsizes
  rcases h with ⟨hbuf, hbv⟩ | ⟨f, hbuf, hbv⟩
  · exact hs.congr hbuf hbv hspb htotal
  · exact (synthFrame_bufferInv hs f).congr hbuf hbv hspb htotal

theorem startUp_bufferInv (tol : Nat) (ms : List Move) {r : Startup} (h : r.admitted = true) :
    (startUp tol ms r).BufferInv where
  sorted := List.Pairwise.nil
  inside := nofun
  full := nofun
  empty _ := rfl
  range := nofun
  counts := ⟨one_le_samplesPerBit ((admitted_iff r).1 h).1, rfl⟩

theorem resume_keepsOrFills (i : Instr) (s : State) : KeepsOrFills s (resume i s) := by
  cases i with
  | synth =>
    rcases synthPhase_buf s with ⟨f, hf, hbuf⟩ | ⟨hf, hbuf⟩
    · exact .inr ⟨f, hbuf, by simp [resume, State.fv, hf]⟩
    · exact .inl ⟨hbuf, by simp [resume, State.fv, hf]⟩
  | encode | setpol | transmit | startrepeat | shutdown => exact .inl (by simp [resume])

theorem resume_keepsSizes (i : Instr) (s : State) : KeepsSizes s (resume i s) := by
  cases i <;> simp [KeepsSizes, resume]

theorem synthFrame_arrive_buf (f : Frame) (i : Instr) (s : State) :
    (synthFrame f (arrive i s)).buf = (synthFrame f s).buf := by
  unfold arrive; split <;> rfl

theorem CommandEffect.keepsOrFills {i : Instr} {s t : State} (h : CommandEffect i s t) : KeepsOrFills s t := by
  cases h with
  | released => exact .inl ⟨rfl, rfl⟩
  | waits => exact .inl (by simp)
  | runs =>
    have hrun := resume_keepsOrFills i (arrive i s)
    simpa only [KeepsOrFills, arrive_buf, arrive_bv, synthFrame_arrive_buf] using hrun

theorem CommandEffect.keepsSizes {i : Instr} {s t : State} (h : CommandEffect i s t) : KeepsSizes s t := by
  cases h with
  | released => exact ⟨rfl, rfl, rfl⟩
  | waits => simp [KeepsSizes]
  | runs =>
    have hrun := resume_keepsSizes i (arrive i s)
    simpa only [KeepsSizes, arrive_fs, arrive_spb, arrive_total] using hrun

/-- All a step does to the sample memory and to the numbers a reset loads: it is a reset, or it keeps the numbers and keeps or
fills the memory (R37, R51). -/
theorem StepEffect.memory {m : Option Move} {u t : State} (h : StepEffect m u t) :
    (KeepsOrFills u t ∧ KeepsSizes u t) ∨
      ∃ r, m = some (.reset r) ∧ r.admitted = true ∧ t = startUp u.tol u.moves r := by
  cases h with
  | reset admitted => exact .inr ⟨_, rfl, admitted, rfl⟩
  | command => exact .inl ⟨(execState_effect _ u).keepsOrFills, (execState_effect _ u).keepsSizes⟩
  | resume => exact .inl ⟨resume_keepsOrFills _ { u with held := none }, resume_keepsSizes _ { u with held := none }⟩
  | synth => exact .inl ⟨.inr ⟨_, rfl, rfl⟩, rfl, rfl, rfl⟩
  | write => exact .inl (by split <;> simp [KeepsOrFills, KeepsSizes])
  | illegal | encode | tick | still | expiry | waitEnd | play | stop | reload =>
    exact .inl (by simp [KeepsOrFills, KeepsSizes])

theorem StepEffect.bufferInv {m : Option Move} {u t : State} (h : StepEffect m u t) (hu : u.BufferInv) :
    t.BufferInv := by
  rcases h.memory with ⟨hmemory, hsizes⟩ | ⟨r, -, hr, rfl⟩
  · exact hmemory.bufferInv hsizes hu
  · exact startUp_bufferInv u.tol u.moves hr

/-- Settles O53, from what a step can do to the memory and to the sizes. -/
theorem bufferInvariantIsKept : Obligations.BufferInvariantIsKept := by
  intro s t hs hstep
  exact (step_effect hstep).bufferInv (hs.congr rfl rfl rfl rfl)

/-- Settles O44, from the same lemma; a reset that completes has loaded the three numbers. -/
theorem configurationIsConstant : Obligations.ConfigurationIsConstant := by
  refine ⟨fun s t hno hstep => ?_, fun s t r ms hmoves hstep => ?_, fun s => ⟨rfl, rfl, rfl⟩⟩
  · rcases (step_effect hstep).memory with ⟨-, hsizes⟩ | ⟨r, hr, -, -⟩
    · exact hsizes
    · exact absurd hr (hno r)
  · rw [step_of_reset hmoves] at hstep
    split at hstep
    · cases hstep
      exact ⟨rfl, rfl, rfl⟩
    · cases hstep

/-! ### The control shell over every step (O55) -/

/-- No command waits: none is held, and no transaction is the host's (R42). -/
theorem hostWaits_eq_false_iff (s : State) :
    s.hostWaits = false ↔ s.held = none ∧ ∀ x, s.inflight = some x → x.src = .tick := by
  have hsrc (c : Source) : c ≠ .host ↔ c = .tick := by cases c <;> decide
  cases hflight : s.inflight <;> simp [State.hostWaits, hflight, hsrc]

theorem busy_iff (s : State) : s.busy = true ↔ ∃ x, s.inflight = some x := by
  simp [State.busy, Option.isSome_iff_exists]

theorem repeats_congr {s t : State} (h : t.rpt = s.rpt) : t.repeats = s.repeats := by
  simp [State.repeats, h]

/-- The control state of `t` is that of `s`, except that DUE may be cleared, an error recorded, the held command taken, and the
transaction gone on or ended. -/
structure ControlRecedes (s t : State) : Prop where
  rpt : t.rpt = s.rpt
  dev : t.dev = s.dev
  due : t.due = true → s.due = true
  err : s.err ≠ .ok → t.err ≠ .ok
  held : ∀ i, t.held = some i → s.held = some i
  flight : ∀ y, t.inflight = some y → ∃ x, s.inflight = some x ∧ y.src = x.src

theorem State.ControlInv.recede {s t : State} (hs : s.ControlInv) (h : ControlRecedes s t) : t.ControlInv where
  due_repeats hdue := by rw [repeats_congr h.rpt]; exact hs.due_repeats (h.due hdue)
  repeats_ready hrpt := by rw [repeats_congr h.rpt] at hrpt; rw [h.dev]; exact hs.repeats_ready hrpt
  busy_ready hbusy := by
    obtain ⟨y, hy⟩ := (busy_iff t).1 hbusy
    obtain ⟨x, hx, -⟩ := h.flight y hy
    rw [h.dev]
    exact hs.busy_ready ((busy_iff s).2 ⟨x, hx⟩)
  held_ready hheld := by
    obtain ⟨i, hi⟩ := Option.ne_none_iff_exists'.1 hheld
    rw [h.dev]
    exact hs.held_ready (by simp [h.held i hi])
  configured := h.dev ▸ hs.configured
  failed_recorded hdev := h.err (hs.failed_recorded (h.dev ▸ hdev))
  held_behind_tick hheld y hy := by
    obtain ⟨i, hi⟩ := Option.ne_none_iff_exists'.1 hheld
    obtain ⟨x, hx, hsrc⟩ := h.flight y hy
    rw [hsrc]
    exact hs.held_behind_tick (by simp [h.held i hi]) x hx
  held_cancelled i hi hc := by rw [repeats_congr h.rpt]; exact hs.held_cancelled i (h.held i hi) hc
  held_no_startrepeat k hk := hs.held_no_startrepeat k (h.held _ hk)
  host_cancelled y hy hhost := by
    obtain ⟨x, hx, hsrc⟩ := h.flight y hy
    rw [repeats_congr h.rpt]
    exact hs.host_cancelled x hx (hsrc ▸ hhost)

/-- The invariant of the control shell speaks of RPT, DUE, DEV, ERR, HELD and the transaction alone. -/
theorem State.ControlInv.congr {s t : State} (hs : s.ControlInv) (hrpt : t.rpt = s.rpt) (hdue : t.due = s.due)
    (hdev : t.dev = s.dev) (herr : t.err = s.err) (hheld : t.held = s.held) (hflight : t.inflight = s.inflight) :
    t.ControlInv :=
  hs.recede ⟨hrpt, hdev, by rw [hdue]; exact id, by rw [herr]; exact id, by rw [hheld]; exact fun _ => id,
    by rw [hflight]; exact fun y hy => ⟨y, hy, rfl⟩⟩

theorem cancel_controlInv {s : State} (hs : s.ControlInv) : (cancel s).ControlInv where
  due_repeats := nofun
  repeats_ready := nofun
  busy_ready := hs.busy_ready
  held_ready := hs.held_ready
  configured := hs.configured
  failed_recorded := hs.failed_recorded
  held_behind_tick := hs.held_behind_tick
  held_cancelled _ _ _ := rfl
  held_no_startrepeat := hs.held_no_startrepeat
  host_cancelled _ _ _ := rfl

theorem arrive_controlInv {s : State} (hs : s.ControlInv) (i : Instr) : (arrive i s).ControlInv := by
  unfold arrive
  split
  · exact cancel_controlInv hs
  · exact hs

theorem arrive_repeats {i : Instr} (h : cancelling i = true) (s : State) : (arrive i s).repeats = false := by
  simp [arrive, h, State.repeats]

/-- A command other than STARTREPEAT may wait behind a tick-driven transaction, once it has cancelled (R136, R143). -/
theorem hold_controlInv {i : Instr} {s : State} (hs : s.ControlInv) (hbusy : s.busy = true)
    (htick : ∀ x, s.inflight = some x → x.src = .tick) (hkind : ∀ k, i ≠ .startrepeat k)
    (hcancel : cancelling i = true → s.repeats = false) : (hold i s).ControlInv where
  due_repeats := hs.due_repeats
  repeats_ready := hs.repeats_ready
  busy_ready := hs.busy_ready
  held_ready _ := hs.busy_ready hbusy
  configured := hs.configured
  failed_recorded := hs.failed_recorded
  held_behind_tick _ := htick
  held_cancelled j hj hc := by cases hj; exact hcancel hc
  held_no_startrepeat k hk := hkind k (Option.some.inj hk)
  host_cancelled := hs.host_cancelled

/-- A transaction may begin on a ready device: a tick-driven one at any time, the host's with no schedule and no held
command. -/
theorem beginTxn_controlInv {s : State} (hs : s.ControlInv) (k : Key) (c : Source) (hdev : s.dev = .ready)
    (hhost : c = .host → s.repeats = false ∧ s.held = none) : (beginTxn k c s).ControlInv where
  due_repeats := hs.due_repeats
  repeats_ready := hs.repeats_ready
  busy_ready _ := hdev
  held_ready _ := hdev
  configured := hs.configured
  failed_recorded := hs.failed_recorded
  held_behind_tick hheld x hx := by
    cases hx
    cases c with
    | tick => rfl
    | host => exact absurd (hhost rfl).2 hheld
  held_cancelled := hs.held_cancelled
  held_no_startrepeat := hs.held_no_startrepeat
  host_cancelled x hx hsrc := by cases hx; exact (hhost hsrc).1

theorem raise_controlInv {s : State} (hs : s.ControlInv) (c : Code) (w : Bool) : (raise c w s).ControlInv :=
  hs.recede ⟨rfl, rfl, id, fun h => by simp [h], fun _ => id, fun y hy => ⟨y, hy, rfl⟩⟩

theorem goTo_controlInv {s : State} {x : Txn} (hs : s.ControlInv) (h : s.inflight = some x) (g : Stage) :
    (goTo g x s).ControlInv :=
  hs.recede ⟨rfl, rfl, id, id, fun _ => id, fun y hy => ⟨x, h, by cases hy; rfl⟩⟩

theorem endTxn_controlInv {s : State} (hs : s.ControlInv) (c : Code) (x : Txn) : (endTxn c x s).ControlInv :=
  hs.recede ⟨rfl, rfl, id, fun h => by simp [h], fun _ => id, nofun⟩

/-- A device answer takes the transaction on or ends it, with the call recorded before. -/
theorem answered_controlInv {s : State} {x : Txn} (hs : s.ControlInv) (h : s.inflight = some x) (ok : Bool) (d : DevCall)
    (g : Stage) (c : Code) : (if ok then goTo g x (logCall d s) else endTxn c x (logCall d s)).ControlInv := by
  have hlogged : (logCall d s).ControlInv := hs.congr rfl rfl rfl rfl rfl rfl
  split
  · exact goTo_controlInv hlogged h g
  · exact endTxn_controlInv hlogged c x

theorem transmitPhase_controlInv {s : State} (hs : s.ControlInv) (k : Key) (hrpt : s.repeats = false)
    (hheld : s.held = none) : (transmitPhase k s).ControlInv := by
  unfold transmitPhase
  split
  case isTrue hdev => exact beginTxn_controlInv hs k .host hdev fun _ => ⟨hrpt, hheld⟩
  case isFalse => exact raise_controlInv hs _ true

/-- A schedule may begin on a ready device where no command waits (R140). -/
theorem startrepeatPhase_controlInv {s : State} (hs : s.ControlInv) (k : Key) (hheld : s.held = none)
    (htick : ∀ x, s.inflight = some x → x.src = .tick) : (startrepeatPhase k s).ControlInv := by
  unfold startrepeatPhase
  split
  case isFalse => exact raise_controlInv hs _ true
  case isTrue hdev =>
    exact
      { due_repeats := fun _ => rfl
        repeats_ready := fun _ => hdev
        busy_ready := fun _ => hdev
        held_ready := fun _ => hdev
        configured := hs.configured
        failed_recorded := hs.failed_recorded
        held_behind_tick := fun h => absurd hheld h
        held_cancelled := fun i hi => absurd (hheld.symm.trans hi) nofun
        held_no_startrepeat := hs.held_no_startrepeat
        host_cancelled := fun x hx hsrc => absurd ((htick x hx).symm.trans hsrc) nofun }

/-- The device may go where nothing needs it: no schedule, no transaction, no held command (R145). -/
theorem shutdownPhase_controlInv {s : State} (hs : s.ControlInv) (hrpt : s.repeats = false) (hheld : s.held = none)
    (hfree : s.inflight = none) : (shutdownPhase s).ControlInv where
  due_repeats hdue := by
    rw [repeats_congr (shutdownPhase_rpt s)]
    exact hs.due_repeats (by simpa using hdue)
  repeats_ready h := by
    rw [repeats_congr (shutdownPhase_rpt s), hrpt] at h
    cases h
  busy_ready h := by simp [State.busy, hfree] at h
  held_ready h := by simp [hheld] at h
  configured := nofun
  failed_recorded := nofun
  held_behind_tick h := by simp [hheld] at h
  held_cancelled i hi := by simp [hheld] at hi
  held_no_startrepeat k := by simp [hheld]
  host_cancelled x hx := by simp [hfree] at hx

/-- A command that may run keeps the control shell, its Cancel made before. -/
theorem resume_controlInv {i : Instr} {s : State} (hs : s.ControlInv) (hheld : s.held = none)
    (htick : ∀ x, s.inflight = some x → x.src = .tick) (hcancel : cancelling i = true → s.repeats = false)
    (hfree : s.inflight = none ∨ ∃ k, i = .startrepeat k) : (resume i s).ControlInv := by
  cases i with
  | encode k => exact hs.congr rfl rfl rfl rfl rfl rfl
  | setpol b => exact hs.congr rfl rfl rfl rfl rfl rfl
  | synth => exact hs.recede (by constructor <;> simp +contextual [resume])
  | transmit k => exact transmitPhase_controlInv hs k (hcancel rfl) hheld
  | startrepeat k => exact startrepeatPhase_controlInv hs k hheld htick
  | shutdown => exact shutdownPhase_controlInv hs (hcancel rfl) hheld (hfree.resolve_right nofun)

theorem CommandEffect.controlInv {i : Instr} {s t : State} (h : CommandEffect i s t) (hs : s.ControlInv)
    (hwaits : s.hostWaits = false) : t.ControlInv := by
  obtain ⟨hheld, htick⟩ := (hostWaits_eq_false_iff s).1 hwaits
  have harrive := arrive_controlInv hs i
  cases h with
  | released => exact raise_controlInv hs _ true
  | waits dev busy kind =>
    exact hold_controlInv harrive (by simpa using busy) (by simpa using htick) kind (arrive_repeats · s)
  | runs dev free =>
    exact resume_controlInv harrive (by simpa using hheld) (by simpa using htick) (arrive_repeats · s)
      (by simpa [State.busy] using free)

theorem startUp_controlInv (tol : Nat) (ms : List Move) (r : Startup) : (startUp tol ms r).ControlInv where
  due_repeats := nofun
  repeats_ready := nofun
  busy_ready := nofun
  held_ready h := absurd rfl h
  configured := by unfold startUp; dsimp only; split <;> decide
  failed_recorded := by unfold startUp; dsimp only; split <;> decide
  held_behind_tick h := absurd rfl h
  held_cancelled := nofun
  held_no_startrepeat := nofun
  host_cancelled := nofun

theorem StepEffect.controlInv {m : Option Move} {u t : State} (h : StepEffect m u t) (hu : u.ControlInv) :
    t.ControlInv := by
  cases h with
  | command free => exact (execState_effect _ u).controlInv hu free
  | resume move flight held =>
    have hcleared : ControlRecedes u { u with held := none } := ⟨rfl, rfl, id, id, nofun, fun y hy => ⟨y, hy, rfl⟩⟩
    exact resume_controlInv (hu.recede hcleared) rfl (by simp [flight]) (hu.held_cancelled _ held) (.inl flight)
  | tick move rpt due flight dev =>
    have hcleared : ControlRecedes u { u with due := false } := ⟨rfl, rfl, nofun, id, fun _ => id, fun y hy => ⟨y, hy, rfl⟩⟩
    exact beginTxn_controlInv (hu.recede hcleared) _ .tick dev nofun
  | expiry rpt =>
    exact { hu with due_repeats := fun _ => by simp [State.repeats, rpt] }
  | still => exact hu
  | reset => exact startUp_controlInv u.tol u.moves _
  | illegal =>
    unfold illegalWord
    split <;> exact raise_controlInv hu _ true
  | @encode _ _ x move flight =>
    have hencoded : (encodeKey x.key u).ControlInv := hu.congr rfl rfl rfl rfl rfl rfl
    exact goTo_controlInv hencoded flight .synth
  | @synth _ _ _ f move flight =>
    have hfilled : (synthFrame f u).ControlInv := hu.congr rfl rfl rfl rfl rfl rfl
    exact goTo_controlInv hfilled flight .write
  | waitEnd move flight => exact goTo_controlInv hu flight .stop
  | write flight => exact answered_controlInv hu flight _ _ .play .write
  | play flight => exact answered_controlInv hu flight _ _ .wait .play
  | stop flight => exact answered_controlInv hu flight _ _ .reload .stop
  | @reload _ _ ok =>
    have hlogged : (logCall (.reloadBuffer ok) u).ControlInv := hu.congr rfl rfl rfl rfl rfl rfl
    exact endTxn_controlInv hlogged _ _

/-- Settles O55, from what each step does to the control shell. -/
theorem controlInvariantIsKept : Obligations.ControlInvariantIsKept := by
  intro s t hs hstep
  exact (step_effect hstep).controlInv (hs.congr rfl rfl rfl rfl rfl rfl)

/-! ### ERR over every step (O43) -/

/-- From `s` to `t` ERR is untouched, or it held no error and takes one, which is the response if there is one (R152). -/
def RecordsFirst (s t : State) : Prop :=
  t.err = s.err ∨ (s.err = .ok ∧ (t.responses = s.responses ++ [t.err] ∨ t.responses = s.responses))

theorem raise_recordsFirst (c : Code) (w : Bool) (s : State) : RecordsFirst s (raise c w s) := by
  by_cases hok : s.err = .ok
  · exact .inr ⟨hok, by cases w <;> simp [hok]⟩
  · exact .inl (by simp [hok])

/-- A transaction ends by raising its code, with or without a command that waits (R139). -/
theorem endTxn_recordsFirst (c : Code) (x : Txn) (s : State) : RecordsFirst s (endTxn c x s) :=
  raise_recordsFirst c (decide (x.src = .host)) s

theorem answered_recordsFirst (ok : Bool) (d : DevCall) (g : Stage) (c : Code) (x : Txn) (s : State) :
    RecordsFirst s (if ok then goTo g x (logCall d s) else endTxn c x (logCall d s)) := by
  split
  · exact .inl rfl
  · exact endTxn_recordsFirst c x (logCall d s)

theorem resume_recordsFirst (i : Instr) (s : State) : RecordsFirst s (resume i s) := by
  cases i with
  | encode | setpol => exact .inl rfl
  | shutdown => exact .inl (shutdownPhase_err s)
  | synth =>
    simp only [resume, synthPhase]
    split
    · exact raise_recordsFirst _ true s
    · exact .inl rfl
  | transmit k =>
    simp only [resume, transmitPhase]
    split
    · exact .inl rfl
    · exact raise_recordsFirst _ true s
  | startrepeat k =>
    simp only [resume, startrepeatPhase]
    split
    · exact .inl rfl
    · exact raise_recordsFirst _ true s

theorem CommandEffect.recordsFirst {i : Instr} {s t : State} (h : CommandEffect i s t) : RecordsFirst s t := by
  cases h with
  | released => exact raise_recordsFirst _ true s
  | waits => exact .inl (by simp)
  | runs =>
    have hrun := resume_recordsFirst i (arrive i s)
    simpa only [RecordsFirst, arrive_err, arrive_responses] using hrun

/-- All a step that is no reset does to ERR. -/
theorem StepEffect.recordsFirst {m : Option Move} {u t : State} (h : StepEffect m u t)
    (hm : ∀ r, m ≠ some (.reset r)) : RecordsFirst u t := by
  cases h with
  | command => exact (execState_effect _ u).recordsFirst
  | resume => exact resume_recordsFirst _ { u with held := none }
  | illegal =>
    unfold illegalWord
    split <;> exact raise_recordsFirst _ true u
  | write => exact answered_recordsFirst _ _ .play .write _ u
  | play => exact answered_recordsFirst _ _ .wait .play _ u
  | stop => exact answered_recordsFirst _ _ .reload .stop _ u
  | @reload _ x ok => exact endTxn_recordsFirst _ x (logCall (.reloadBuffer ok) u)
  | encode | synth | tick | still | expiry | waitEnd => exact .inl rfl
  | reset => exact absurd rfl (hm _)

/-- Settles O43, from what a step can do to ERR. -/
theorem firstErrorIsKept : Obligations.FirstErrorIsKept := by
  intro s t hno hstep
  have hrecords : RecordsFirst s t := (step_effect hstep).recordsFirst hno
  rcases hrecords with hkept | ⟨hok, hresponse⟩
  · exact ⟨fun _ => hkept, fun hok herr => absurd (hkept.trans hok) herr⟩
  · exact ⟨fun herr => absurd hok herr, fun _ _ => hresponse⟩

/-! ### POL and the record of device calls over every step (O45, O47) -/

/-- In the move `m` made in `u`, the command `i` runs with no transaction in flight: the host gives it or it was held. -/
def RunsCommand (m : Option Move) (u : State) (i : Instr) : Prop :=
  u.busy = false ∧ ((∃ w, m = some (.host w) ∧ decode w = .ok i) ∨ u.held = some i)

/-- The host's command runs in this step. -/
theorem runsCommand_of_word {u : State} {w : Word} {i : Instr} (hbusy : u.busy = false) (hword : decode w = .ok i) :
    RunsCommand (some (.host w)) u i := ⟨hbusy, .inl ⟨w, rfl, hword⟩⟩

/-- The held command runs in this step. -/
theorem runsCommand_of_held {m : Option Move} {u : State} {i : Instr} (hflight : u.inflight = none)
    (hheld : u.held = some i) : RunsCommand m u i := ⟨by simp [State.busy, hflight], .inr hheld⟩

theorem resume_pol (i : Instr) (s : State) : (resume i s).pol = s.pol ∨ i = .setpol (resume i s).pol := by
  cases i with
  | setpol b => exact .inr rfl
  | encode | synth | transmit | startrepeat | shutdown => exact .inl (by simp [resume])

/-- Where no transaction is in flight a command changes POL only as SETPOL, elsewhere never (R100, R101). -/
theorem CommandEffect.pol {i : Instr} {s t : State} (h : CommandEffect i s t) :
    t.pol = s.pol ∨ (s.busy = false ∧ i = .setpol t.pol) := by
  cases h with
  | released => exact .inl rfl
  | waits => exact .inl (by simp)
  | runs dev free =>
    rcases resume_pol i (arrive i s) with hkept | hset
    · exact .inl (hkept.trans (arrive_pol i s))
    · have hkind : ¬ ∃ k, i = .startrepeat k := by rintro ⟨k, rfl⟩; cases hset
      exact .inr ⟨free.resolve_right hkind, hset⟩

/-- All a step that is no reset does to POL. -/
theorem StepEffect.pol {m : Option Move} {u t : State} (h : StepEffect m u t) (hm : ∀ r, m ≠ some (.reset r)) :
    t.pol = u.pol ∨ RunsCommand m u (.setpol t.pol) := by
  cases h with
  | command free word =>
    rcases (execState_effect _ u).pol with hkept | ⟨hbusy, hset⟩
    · exact .inl hkept
    · exact .inr (runsCommand_of_word hbusy (word.trans (congrArg _ hset)))
  | resume move flight held =>
    rcases resume_pol _ { u with held := none } with hkept | hset
    · exact .inl hkept
    · exact .inr (runsCommand_of_held flight (held.trans (congrArg _ hset)))
  | write => exact .inl (by split <;> simp)
  | illegal | encode | synth | tick | still | expiry | waitEnd | play | stop | reload => exact .inl (by simp [synthFrame])
  | reset => exact absurd rfl (hm _)

/-- Settles O45, from what a step can do to POL. -/
theorem polarityChangesOnlyBySetpol : Obligations.PolarityChangesOnlyBySetpol := by
  intro s t hno hstep hchanged
  exact ((step_effect hstep).pol hno).resolve_left hchanged

/-- The call a stage makes, with the device's answer; none in a stage that waits for no answer (R134, R137). -/
def stageCall (u : State) (ok : Bool) : Stage → Option DevCall
  | .write => some (.write (Memory.samples u.buf u.total) ok)
  | .play => some (.play ok)
  | .stop => some (.stop ok)
  | .reload => some (.reloadBuffer ok)
  | .encode | .synth | .wait => none

/-- From `s` to `t` the device is released, and the call recorded (R145). -/
def Releases (s t : State) : Prop :=
  s.dev = .ready ∧ t.dev = .released ∧ t.devtrace = s.devtrace ++ [.release]

theorem resume_devtrace (i : Instr) (s : State) :
    (resume i s).devtrace = s.devtrace ∨ (i = .shutdown ∧ Releases s (resume i s)) := by
  cases i with
  | shutdown =>
    by_cases hdev : s.dev = .ready
    · exact .inr ⟨rfl, hdev, rfl, by simp [resume, hdev]⟩
    · exact .inl (by simp [resume, hdev])
  | encode | synth | setpol | transmit | startrepeat => exact .inl (by simp [resume])

/-- A command records a call only as SHUTDOWN with no transaction in flight. -/
theorem CommandEffect.devtrace {i : Instr} {s t : State} (h : CommandEffect i s t) :
    t.devtrace = s.devtrace ∨ (s.busy = false ∧ i = .shutdown ∧ Releases s t) := by
  cases h with
  | released => exact .inl rfl
  | waits => exact .inl (by simp)
  | runs dev free =>
    rcases resume_devtrace i (arrive i s) with hkept | ⟨rfl, hrelease⟩
    · exact .inl (hkept.trans (arrive_devtrace i s))
    · exact .inr ⟨free.resolve_right nofun, rfl, hrelease⟩

/-- All a step that is no reset does to the record of device calls: nothing, the call of the stage whose answer comes, or the
release of a SHUTDOWN. -/
theorem StepEffect.devtrace {m : Option Move} {u t : State} (h : StepEffect m u t) (hm : ∀ r, m ≠ some (.reset r)) :
    t.devtrace = u.devtrace ∨
    (∃ (x : Txn) (ok : Bool) (d : DevCall), u.inflight = some x ∧ m = some (.answer ok) ∧
      stageCall u ok x.stage = some d ∧ t.devtrace = u.devtrace ++ [d]) ∨
    (RunsCommand m u .shutdown ∧ Releases u t) := by
  cases h with
  | @command _ _ i free word =>
    rcases (execState_effect i u).devtrace with hkept | ⟨hbusy, rfl, hrelease⟩
    · exact .inl hkept
    · exact .inr (.inr ⟨runsCommand_of_word hbusy word, hrelease⟩)
  | @resume _ _ i move flight held =>
    rcases resume_devtrace i { u with held := none } with hkept | ⟨rfl, hrelease⟩
    · exact .inl hkept
    · exact .inr (.inr ⟨runsCommand_of_held flight held, hrelease⟩)
  | write flight stage => exact .inr (.inl ⟨_, _, _, flight, rfl, by rw [stage]; rfl, by split <;> simp⟩)
  | play flight stage | stop flight stage | reload flight stage =>
    exact .inr (.inl ⟨_, _, _, flight, rfl, by rw [stage]; rfl, by simp⟩)
  | illegal | encode | synth | tick | still | expiry | waitEnd => exact .inl (by simp [synthFrame])
  | reset => exact absurd rfl (hm _)

/-- Settles O47, from what a step can do to the record, by the stage in flight. -/
theorem deviceCallsOnlyInTheirStages : Obligations.DeviceCallsOnlyInTheirStages := by
  intro s t hno hstep hchanged
  rcases ((step_effect hstep).devtrace hno).resolve_left hchanged with
    ⟨x, ok, d, hflight, hmove, hcall, hrecord⟩ | ⟨⟨hbusy, hcause⟩, hdev, hreleased, hrecord⟩
  · refine .inl ⟨x, ok, hflight, hmove, ?_⟩
    cases hstage : x.stage <;> rw [hstage] at hcall <;> cases hcall <;> simp [hrecord]
  · exact .inr ⟨hrecord, hbusy, hdev, hreleased, hcause.symm⟩

/-! ### Reset and the read port (O49, O50, O58) -/

theorem startUp_traceInv (tol : Nat) (ms : List Move) (r : Startup) : (startUp tol ms r).TraceInv := by
  obtain ⟨fs, device, pol⟩ := r
  rcases device with _ | ok
  · exact ⟨nofun, fun _ => .inl rfl, nofun⟩
  · cases ok with
    | false => exact ⟨nofun, fun _ => .inr rfl, nofun⟩
    | true => exact ⟨fun _ => rfl, nofun, nofun⟩

theorem startUp_inv (tol : Nat) (ms : List Move) {r : Startup} (h : r.admitted = true) : (startUp tol ms r).Inv where
  buffer := startUp_bufferInv tol ms h
  encode := rfl
  rate := (admitted_iff r).1 h
  control := startUp_controlInv tol ms r
  txn := ⟨nofun, nofun⟩
  trace := startUp_traceInv tol ms r

/-- Settles O58: `State.reset` is one of the states after a reset sequence. -/
theorem resetMeetsTheInvariant : Obligations.ResetMeetsTheInvariant :=
  ⟨reset_eq_startUp ▸ startUp_inv _ _ startup_admitted, fun tol ms _ h => startUp_inv tol ms h⟩

/-- After a reset STATUS shows DEV alone (R35, R44). -/
theorem startUp_status (tol : Nat) (ms : List Move) (r : Startup) :
    (startUp tol ms r).status = if r.device = .answers true then 0x10#6 else 0x20#6 := by
  simp only [State.status, State.repeats, State.fv, State.busy, startUp]
  split <;> simp [Device.bits]

/-- Settles O49: the reset sequence, by the device it meets. -/
theorem resetSequence : Obligations.ResetSequence := by
  intro s r ms hmoves hlow hhigh
  refine ⟨startUp s.tol ms r, ?_, rfl, rfl, rfl, rfl, rfl, rfl, rfl, rfl, rfl, rfl, rfl, rfl, rfl, rfl, rfl, rfl, rfl, ?_⟩
  · rw [step_of_reset hmoves, if_pos ((admitted_iff r).2 ⟨hlow, hhigh⟩)]
  · obtain ⟨fs, device, pol⟩ := r
    refine ⟨?_, ?_, ?_⟩ <;> rintro rfl <;> exact ⟨rfl, rfl, startUp_status .., rfl⟩

/-- The layout of STATUS, field by field (R35). -/
theorem readCR_status_layout (s : State) :
    (s.readCR 0).getLsbD 0 = s.busy ∧ (s.readCR 0).getLsbD 1 = s.fv ∧ (s.readCR 0).getLsbD 2 = s.bv ∧
    (s.readCR 0).getLsbD 3 = s.repeats ∧ (s.readCR 0).extractLsb' 4 2 = s.dev.bits ∧
    (s.readCR 0).extractLsb' 6 26 = 0#26 := by
  simp only [State.readCR, State.status]
  generalize s.busy = y, s.fv = f, s.bv = b, s.repeats = p, s.dev.bits = d
  revert y f b p d
  decide

/-- Settles O50, register by register. -/
theorem registerReadPort : Obligations.RegisterReadPort := by
  refine ⟨by decide, by decide, fun s => ?_⟩
  obtain ⟨hbusy, hfv, hbv, hrpt, hdev, hrest⟩ := readCR_status_layout s
  refine ⟨hbusy, hfv, hbv, hrpt, hdev, hrest, rfl, fun hframe => ?_, fun k f hkey hframe => ?_, rfl, rfl, rfl, rfl, rfl, rfl,
    rfl, fun hidle => ?_, fun k hk => ?_, fun n hn => ?_⟩
  · have hnone : s.frame = none := by simpa [State.fv] using hframe
    simp [State.readCR, State.fv, hnone]
  · simp [State.readCR, State.fv, hkey, hframe]
  · simp [State.readCR, hidle, Repeat.keyBits]
  · simp [State.readCR, hk, Repeat.keyBits]
  · obtain ⟨j, rfl⟩ := Nat.exists_eq_add_of_lt hn
    rw [Nat.add_comm 11 j]
    rfl

end Sys2Proof.Machine

namespace Sys2Proof.Machine

/-! ### The transaction in flight over every step (O56) -/

/-- The invariant of the transaction speaks of KEY, FRAME, BUF, TOTAL, the samples and the transaction alone. -/
theorem State.TxnInv.congr {s t : State} (hs : s.TxnInv) (hkey : t.key = s.key) (hframe : t.frame = s.frame)
    (hbuf : t.buf = s.buf) (htotal : t.total = s.total) (hsample : sampleValue t = sampleValue s)
    (hflight : t.inflight = s.inflight) : t.TxnInv where
  key := by rw [hkey, hframe, hflight]; exact hs.key
  buffer := by rw [hbuf, htotal, hsample, hflight]; exact hs.buffer

/-- Nothing is asked of a transaction before its Encode stage, nor where none is in flight. -/
theorem txnInv_of_encode {s : State} (h : ∀ x, s.inflight = some x → x.stage = .encode) : s.TxnInv where
  key x hx hstage := absurd (h x hx) hstage
  buffer x hx hstage := absurd ((h x hx).symm.trans hstage) nofun

theorem beginTxn_txnInv (k : Key) (c : Source) (s : State) : (beginTxn k c s).TxnInv :=
  txnInv_of_encode fun x hx => by cases hx; rfl

theorem endTxn_txnInv (c : Code) (x : Txn) (s : State) : (endTxn c x s).TxnInv := txnInv_of_encode nofun

/-- A transaction past its Encode stage may go on to any stage but Write with KEY and FRAME as they are. -/
theorem goTo_txnInv {s : State} {x : Txn} {g : Stage} (hs : s.TxnInv) (hflight : s.inflight = some x)
    (hstage : x.stage ≠ .encode) (hg : g ≠ .write) : (goTo g x s).TxnInv where
  key y hy _ := by cases hy; exact hs.key x hflight hstage
  buffer y hy hwrite := by cases hy; exact absurd hwrite hg

/-- The Encode stage gives the transaction the frame of its own key (R132). -/
theorem encodeStage_txnInv (x : Txn) (s : State) : (encodeStage x s).TxnInv where
  key y hy _ := by cases hy; exact ⟨rfl, rfl⟩
  buffer y hy hwrite := by cases hy; cases hwrite

/-- The Synth stage fills BUF from FRAME, which by then is the frame of the transaction's own key (R133). -/
theorem synthStage_txnInv {s : State} {x : Txn} {f : Frame} (hs : s.TxnInv) (hflight : s.inflight = some x)
    (hstage : x.stage = .synth) (hframe : s.frame = some f) : (goTo .write x (synthFrame f s)).TxnInv := by
  obtain ⟨hkey, hown⟩ := hs.key x hflight (by simp [hstage])
  obtain rfl : f = frameOf x.key := Option.some.inj (hframe.symm.trans hown)
  exact
    { key := fun y hy _ => by cases hy; exact ⟨hkey, hown⟩
      buffer := fun y hy _ i hi => by cases hy; exact (read_synthFrame s _ i).trans (if_pos hi) }

/-- A device answer takes the transaction past Write or ends it, with the call recorded before. -/
theorem answered_txnInv {s : State} {x : Txn} (hs : s.TxnInv) (hflight : s.inflight = some x)
    (hstage : x.stage ≠ .encode) (ok : Bool) (d : DevCall) (g : Stage) (c : Code) (hg : g ≠ .write) :
    (if ok then goTo g x (logCall d s) else endTxn c x (logCall d s)).TxnInv := by
  have hlogged : (logCall d s).TxnInv := hs.congr rfl rfl rfl rfl rfl rfl
  split
  · exact goTo_txnInv hlogged hflight hstage hg
  · exact endTxn_txnInv c x _

theorem raise_txnInv {s : State} (hs : s.TxnInv) (c : Code) (w : Bool) : (raise c w s).TxnInv :=
  hs.congr rfl rfl rfl rfl rfl rfl

theorem arrive_txnInv {s : State} (hs : s.TxnInv) (i : Instr) : (arrive i s).TxnInv := by
  unfold arrive
  split
  · exact hs.congr rfl rfl rfl rfl rfl rfl
  · exact hs

theorem startrepeatPhase_txnInv {s : State} (hs : s.TxnInv) (k : Key) : (startrepeatPhase k s).TxnInv := by
  unfold startrepeatPhase
  split
  · exact hs.congr rfl rfl rfl rfl rfl rfl
  · exact raise_txnInv hs _ true

/-- A command that runs with no transaction in flight starts at most one, at its Encode stage. -/
theorem resume_txnInv {i : Instr} {s : State} (hs : s.TxnInv) (hfree : s.inflight = none ∨ ∃ k, i = .startrepeat k) :
    (resume i s).TxnInv := by
  cases i with
  | startrepeat k => exact startrepeatPhase_txnInv hs k
  | transmit k =>
    simp only [resume, transmitPhase]
    split
    · exact beginTxn_txnInv k .host s
    · exact raise_txnInv hs _ true
  | encode | synth | setpol | shutdown =>
    have hnone : s.inflight = none := hfree.resolve_right nofun
    exact txnInv_of_encode (by simp [resume, hnone])

theorem CommandEffect.txnInv {i : Instr} {s t : State} (h : CommandEffect i s t) (hs : s.TxnInv) : t.TxnInv := by
  have harrive := arrive_txnInv hs i
  cases h with
  | released => exact raise_txnInv hs _ true
  | waits => exact harrive.congr rfl rfl rfl rfl rfl rfl
  | runs dev free => exact resume_txnInv harrive (by simpa [State.busy] using free)

theorem StepEffect.txnInv {m : Option Move} {u t : State} (h : StepEffect m u t) (hu : u.TxnInv) : t.TxnInv := by
  cases h with
  | command => exact (execState_effect _ u).txnInv hu
  | illegal =>
    unfold illegalWord
    split <;> exact raise_txnInv hu _ true
  | encode => exact encodeStage_txnInv _ u
  | synth move flight stage frame => exact synthStage_txnInv hu flight stage frame
  | resume move flight => exact resume_txnInv (hu.congr rfl rfl rfl rfl rfl rfl) (.inl flight)
  | tick => exact beginTxn_txnInv _ .tick _
  | still => exact hu
  | expiry => exact hu.congr rfl rfl rfl rfl rfl rfl
  | waitEnd move flight stage => exact goTo_txnInv hu flight (by simp [stage]) nofun
  | write flight stage => exact answered_txnInv hu flight (by simp [stage]) _ _ .play .write nofun
  | play flight stage => exact answered_txnInv hu flight (by simp [stage]) _ _ .wait .play nofun
  | stop flight stage => exact answered_txnInv hu flight (by simp [stage]) _ _ .reload .stop nofun
  | reload => exact endTxn_txnInv _ _ _
  | reset => exact txnInv_of_encode nofun

/-- Settles O56, from what each step does to the transaction in flight. -/
theorem transactionInvariantIsKept : Obligations.TransactionInvariantIsKept := by
  intro s t hs hstep
  exact (step_effect hstep).txnInv (hs.congr rfl rfl rfl rfl rfl rfl)

/-! ### The record of device calls over every step (O57) -/

theorem tracePhase_concat (calls : List DevCall) (d : DevCall) :
    tracePhase (calls ++ [d]) = (tracePhase calls).next d := List.foldl_concat ..

/-- The invariant of the record speaks of DEV, the record and what the stage in flight asks of it. -/
theorem State.TraceInv.congr {s t : State} (hs : s.TraceInv) (hdev : t.dev = s.dev) (htrace : t.devtrace = s.devtrace)
    (hphase : stagePhase t.inflight = stagePhase s.inflight) : t.TraceInv where
  ready := by rw [hdev, htrace, hphase]; exact hs.ready
  failed := by rw [hdev, htrace]; exact hs.failed
  released := by rw [hdev, htrace]; exact hs.released

theorem traceInv_of_ready {s : State} (hdev : s.dev = .ready) (hphase : tracePhase s.devtrace = stagePhase s.inflight) :
    s.TraceInv where
  ready _ := hphase
  failed h := absurd (hdev.symm.trans h) nofun
  released h := absurd (hdev.symm.trans h) nofun

/-- A transaction in flight has a ready device, whose record stands where the stage asks (R131). -/
theorem ready_of_flight {s : State} {x : Txn} (hs : s.TraceInv) (hcontrol : s.ControlInv) (hflight : s.inflight = some x) :
    s.dev = .ready ∧ tracePhase s.devtrace = stagePhase (some x) := by
  have hdev := hcontrol.busy_ready ((busy_iff s).2 ⟨x, hflight⟩)
  exact ⟨hdev, hflight ▸ hs.ready hdev⟩

/-- The device takes the call `d` in its place: the record then stands where the next stage asks, or between two groups. -/
theorem answered_traceInv {s : State} {x : Txn} (hs : s.TraceInv) (hcontrol : s.ControlInv) (hflight : s.inflight = some x)
    (ok : Bool) (d : DevCall) (g : Stage) (c : Code)
    (hnext : (stagePhase (some x)).next d = if ok then stagePhase (some { x with stage := g }) else .between) :
    (if ok then goTo g x (logCall d s) else endTxn c x (logCall d s)).TraceInv := by
  obtain ⟨hdev, hphase⟩ := ready_of_flight hs hcontrol hflight
  rw [← hphase, ← tracePhase_concat] at hnext
  cases ok <;> exact traceInv_of_ready hdev hnext

theorem raise_traceInv {s : State} (hs : s.TraceInv) (c : Code) (w : Bool) : (raise c w s).TraceInv :=
  hs.congr rfl rfl rfl

/-- Between two groups a ready device is released; a device whose startup failed leaves the record as it was (R145). -/
theorem shutdownPhase_traceInv {s : State} (hs : s.TraceInv) (hconfigured : s.dev ≠ .unconfigured)
    (hfree : s.inflight = none) : (shutdownPhase s).TraceInv where
  ready := nofun
  failed := nofun
  released _ := by
    rw [shutdownPhase_devtrace]
    cases hdev : s.dev with
    | unconfigured => exact absurd hdev hconfigured
    | ready =>
      have hbetween : tracePhase s.devtrace = .between := by rw [hs.ready hdev, hfree]; rfl
      exact .inl (by rw [if_pos rfl, tracePhase_concat, hbetween]; rfl)
    | failed => exact .inr (hs.failed hdev)
    | released => exact hs.released hdev

theorem resume_traceInv {i : Instr} {s : State} (hs : s.TraceInv) (hconfigured : s.dev ≠ .unconfigured)
    (hfree : s.inflight = none ∨ ∃ k, i = .startrepeat k) : (resume i s).TraceInv := by
  cases i with
  | encode | setpol => exact hs.congr rfl rfl rfl
  | synth | startrepeat => exact hs.congr (by simp [resume]) (by simp [resume]) (by simp [resume])
  | shutdown => exact shutdownPhase_traceInv hs hconfigured (hfree.resolve_right nofun)
  | transmit k =>
    have hnone : s.inflight = none := hfree.resolve_right nofun
    simp only [resume, transmitPhase]
    split
    · exact hs.congr rfl rfl (by rw [hnone]; rfl)
    · exact raise_traceInv hs _ true

theorem CommandEffect.traceInv {i : Instr} {s t : State} (h : CommandEffect i s t) (hs : s.TraceInv)
    (hconfigured : s.dev ≠ .unconfigured) : t.TraceInv := by
  have harrive : (arrive i s).TraceInv := hs.congr (by simp) (by simp) (by simp)
  cases h with
  | released => exact raise_traceInv hs _ true
  | waits => exact harrive.congr rfl rfl rfl
  | runs dev free => exact resume_traceInv harrive (by simpa using hconfigured) (by simpa [State.busy] using free)

theorem StepEffect.traceInv {m : Option Move} {u t : State} (h : StepEffect m u t) (hcontrol : u.ControlInv)
    (hu : u.TraceInv) : t.TraceInv := by
  cases h with
  | command => exact (execState_effect _ u).traceInv hu hcontrol.configured
  | illegal => exact hu.congr (by simp) (by simp) (by simp)
  | resume move flight => exact resume_traceInv (hu.congr rfl rfl rfl) hcontrol.configured (.inl flight)
  | tick move rpt due flight => exact hu.congr rfl rfl (by rw [flight]; rfl)
  | still => exact hu
  | expiry => exact hu.congr rfl rfl rfl
  | encode move flight stage | synth move flight stage | waitEnd move flight stage =>
    exact hu.congr rfl rfl (by rw [flight]; simp [stagePhase, stage])
  | write flight stage =>
    exact answered_traceInv hu hcontrol flight _ _ .play .write (by simp [stagePhase, stage, TracePhase.next])
  | play flight stage =>
    exact answered_traceInv hu hcontrol flight _ _ .wait .play (by simp [stagePhase, stage, TracePhase.next])
  | stop flight stage =>
    exact answered_traceInv hu hcontrol flight _ _ .reload .stop (by simp [stagePhase, stage, TracePhase.next])
  | reload flight stage =>
    obtain ⟨hdev, hphase⟩ := ready_of_flight hu hcontrol flight
    exact traceInv_of_ready (by simpa using hdev)
      (by simp [tracePhase_concat, hphase, stagePhase, stage, TracePhase.next])
  | reset => exact startUp_traceInv u.tol u.moves _

/-- Settles O57, from what each step does to the record and to the stage in flight. -/
theorem traceInvariantIsKept : Obligations.TraceInvariantIsKept := by
  intro s t hcontrol htrace hstep
  exact (step_effect hstep).traceInv (hcontrol.congr rfl rfl rfl rfl rfl rfl) (htrace.congr rfl rfl rfl)

/-! ### What changes the sample memory (O46) -/

/-- From `s` to `t` the frame that FRAME holds has been written over the sample memory (R103, R133). -/
def FillsFromFrame (s t : State) : Prop := ∃ f, s.frame = some f ∧ t.buf = (synthFrame f s).buf ∧ t.bv = true

/-- Filling writes below TOTAL alone. -/
theorem FillsFromFrame.read_of_total_le {s t : State} (h : FillsFromFrame s t) {i : Nat} (hi : s.total ≤ i) :
    Memory.read t.buf i = Memory.read s.buf i := by
  obtain ⟨f, -, hbuf, -⟩ := h
  rw [hbuf, read_synthFrame, if_neg (by omega)]

theorem resume_buf (i : Instr) (s : State) :
    (resume i s).buf = s.buf ∨ (i = .synth ∧ FillsFromFrame s (resume i s)) := by
  cases i with
  | synth =>
    rcases synthPhase_buf s with ⟨f, hf, hbuf⟩ | ⟨-, hbuf⟩
    · exact .inr ⟨rfl, f, hf, hbuf, by simp [resume, State.fv, hf]⟩
    · exact .inl hbuf
  | encode | setpol | transmit | startrepeat | shutdown => exact .inl (by simp [resume])

theorem CommandEffect.buf {i : Instr} {s t : State} (h : CommandEffect i s t) :
    t.buf = s.buf ∨ (i = .synth ∧ FillsFromFrame s t) := by
  cases h with
  | released => exact .inl rfl
  | waits => exact .inl (by simp)
  | runs =>
    rcases resume_buf i (arrive i s) with hkept | ⟨rfl, hfills⟩
    · exact .inl (hkept.trans (arrive_buf i s))
    · exact .inr ⟨rfl, hfills⟩

/-- All a step that is no reset does to the sample memory, by what causes it (R51). -/
theorem StepEffect.buf {m : Option Move} {u t : State} (h : StepEffect m u t) (hm : ∀ r, m ≠ some (.reset r)) :
    t.buf = u.buf ∨ (FillsFromFrame u t ∧
      ((∃ x, u.inflight = some x ∧ x.stage = .synth) ∨ u.held = some .synth ∨
        ∃ w, m = some (.host w) ∧ decode w = .ok .synth)) := by
  cases h with
  | @command _ _ i free word =>
    rcases (execState_effect i u).buf with hkept | ⟨rfl, hfills⟩
    · exact .inl hkept
    · exact .inr ⟨hfills, .inr (.inr ⟨_, rfl, word⟩)⟩
  | @resume _ _ i move flight held =>
    rcases resume_buf i { u with held := none } with hkept | ⟨rfl, hfills⟩
    · exact .inl hkept
    · exact .inr ⟨hfills, .inr (.inl held)⟩
  | synth move flight stage frame => exact .inr ⟨⟨_, frame, rfl, rfl⟩, .inl ⟨_, flight, stage⟩⟩
  | write => exact .inl (by split <;> simp)
  | illegal | encode | tick | still | expiry | waitEnd | play | stop | reload => exact .inl (by simp)
  | reset => exact absurd rfl (hm _)

/-- Settles O46, from what a step can do to the sample memory. -/
theorem memoryChangesOnlyBySynth : Obligations.MemoryChangesOnlyBySynth := by
  intro s t hno hstep
  rcases (step_effect hstep).buf hno with hkept | ⟨hfills, hcause⟩
  · exact .inl hkept
  · have hkept (i : Nat) (hi : s.total ≤ i) : Memory.read t.buf i = Memory.read s.buf i := hfills.read_of_total_le hi
    obtain ⟨f, hframe, -, hbv⟩ := hfills
    exact .inr ⟨f, hframe, hbv, hkept, hcause⟩

/-! ### The sample read port and the byte order (O51, O52) -/

theorem sampleRead_refused {s : State} {i : Nat} (h : s.bv = false ∨ s.total ≤ i) :
    s.sampleRead i = .error .sampleReadRefused :=
  if_neg (by rcases h with h | h <;> simp [h])

theorem sampleRead_of_read {s : State} {i : Nat} {w : Word} (hbv : s.bv = true) (hi : i < s.total)
    (hread : Memory.read s.buf i = some w) : s.sampleRead i = .ok w.toInt := by
  simp [State.sampleRead, hbv, hi, hread]

/-- Settles O51: with BV = 1 the buffer invariant lists a word at every index below TOTAL. -/
theorem sampleReadPort : Obligations.SampleReadPort := by
  intro s i
  refine ⟨fun hbv => sampleRead_refused (.inl hbv), fun hi => sampleRead_refused (.inr hi),
    fun w => sampleRead_of_read, fun hs hbv hi => ?_⟩
  obtain ⟨w, hread⟩ := (Memory.filled_iff s.buf s.total).1 (hs.full hbv) i hi
  exact ⟨w.toInt, sampleRead_of_read hbv hi hread⟩

/-- Settles O52: the two bytes are adjacent fields of the word. -/
theorem sampleBytesAreLittleEndian : Obligations.SampleBytesAreLittleEndian := by
  intro w
  refine ⟨w.extractLsb' 0 8, w.extractLsb' 8 8, rfl, ?_⟩
  have hbytes : w.extractLsb' 8 8 ++ w.extractLsb' 0 8 = w.extractLsb' 0 16 :=
    BitVec.extractLsb'_append_extractLsb'_eq_extractLsb' (Nat.zero_add 8).symm
  exact hbytes.trans BitVec.extractLsb'_eq_self

end Sys2Proof.Machine

namespace Sys2Proof.Machine

/-! ### Command words and their fields (O1 to O4) -/

@[simp] theorem opField_append (h k : BitVec 8) : opField (h ++ k) = h.extractLsb' 4 4 :=
  BitVec.extractLsb'_append_eq_of_le (by decide)

@[simp] theorem zField_append (h k : BitVec 8) : zField (h ++ k) = h.extractLsb' 0 4 :=
  BitVec.extractLsb'_append_eq_of_le (by decide)

@[simp] theorem keyOperand_append (h k : BitVec 8) : keyOperand (h ++ k) = k :=
  BitVec.extractLsb'_append_eq_right

/-- The round trip: the high byte of a key command's word selects its row, the low byte is the key (R73, R76). -/
theorem decode_encode (i : Instr) : decode (encode i) = .ok i := by
  cases i with
  | encode k | transmit k | startrepeat k => simp [decode, encode]
  | synth | shutdown => rfl
  | setpol b => revert b; decide

/-- Settles O1, constructor by constructor. -/
theorem decodeInvertsEncode : Obligations.DecodeInvertsEncode := decode_encode

/-- A word is its operation, its zero bits and its operand byte (R71). -/
theorem fields_append {w : Word} {op : BitVec 4} {high imm : BitVec 8} (hop : opField w = op) (hz : zField w = 0#4)
    (himm : immField w = imm) (hbyte : high = op ++ 0#4) : high ++ imm = w := by
  subst hop himm hbyte
  have hhigh : opField w ++ zField w = w.extractLsb' 8 8 :=
    BitVec.extractLsb'_append_extractLsb'_eq_extractLsb' rfl
  have hword : w.extractLsb' 8 8 ++ immField w = w.extractLsb' 0 16 :=
    BitVec.extractLsb'_append_extractLsb'_eq_extractLsb' rfl
  rw [← hz, hhigh]
  exact hword.trans BitVec.extractLsb'_eq_self

/-- The operand byte of SETPOL, whose upper seven bits are zero, is the polarity (R74). -/
theorem immField_of_polarityRest {w : Word} (h : polarityRest w = 0#7) : immField w = 0#7 ++ polarityOperand w := by
  have hjoin : polarityRest w ++ polarityOperand w = immField w :=
    BitVec.extractLsb'_append_extractLsb'_eq_extractLsb' rfl
  rw [← hjoin, h]

/-- The word of SETPOL, by bytes (R71, R74). -/
theorem encode_setpol (b : Polarity) : encode (.setpol b) = 0x30#8 ++ (0#7 ++ b) := by
  revert b
  decide

/-- The decoder drops no bit: each branch has tested every bit that the command does not carry. -/
theorem encode_of_decode {w : Word} {i : Instr} (h : decode w = .ok i) : encode i = w := by
  unfold decode at h
  split_ifs at h with hz hencode hsynth himm hsetpol hrest htransmit hstartrepeat hshutdown himm <;> cases h <;>
    rw [not_not] at hz
  · exact fields_append hencode hz rfl rfl
  · exact fields_append (high := 0x20#8) hsynth hz himm rfl
  · rw [encode_setpol]
    exact fields_append hsetpol hz (immField_of_polarityRest hrest) rfl
  · exact fields_append htransmit hz rfl rfl
  · exact fields_append hstartrepeat hz rfl rfl
  · exact fields_append (high := 0x60#8) hshutdown hz himm rfl

theorem decode_eq_ok_iff (w : Word) (i : Instr) : decode w = .ok i ↔ encode i = w :=
  ⟨encode_of_decode, fun h => h ▸ decode_encode i⟩

/-- A word whose upper bits are pinned by a mask is those bits before its free lower bits. -/
theorem append_of_masked {n m : Nat} {w : BitVec (n + m)} {h : BitVec n}
    (hw : w &&& (BitVec.allOnes n ++ 0#m) = h ++ 0#m) : h ++ w.extractLsb' 0 m = w := by
  have hsplit : w.extractLsb' m n ++ w.extractLsb' 0 m = w := BitVec.extractLsb'_append_extractLsb'
  rw [← hsplit, BitVec.and_append, BitVec.and_allOnes, BitVec.and_zero, BitVec.append_left_inj] at hw
  rw [← hw, hsplit]

/-- The legal words are the words of the commands (R76). -/
theorem legalWord_iff (w : Word) : legalWord w = true ↔ ∃ i, encode i = w := by
  constructor
  · intro h
    simp only [legalWord, opcodeTable, Pattern.fits, List.any_cons, List.any_nil, Bool.or_false, Bool.or_eq_true,
      beq_iff_eq] at h
    rcases h with hw | hw | hw | hw | hw | hw
    · exact ⟨.encode _, append_of_masked (n := 8) hw⟩
    · exact ⟨.synth, hw.symm.trans BitVec.and_allOnes⟩
    · exact ⟨.setpol _, append_of_masked (n := 15) hw⟩
    · exact ⟨.transmit _, append_of_masked (n := 8) hw⟩
    · exact ⟨.startrepeat _, append_of_masked (n := 8) hw⟩
    · exact ⟨.shutdown, hw.symm.trans BitVec.and_allOnes⟩
  · rintro ⟨i, rfl⟩
    cases i with
    | encode k => exact (Laws.EncodedWordIsLegal.encode k).1
    | synth => exact Laws.EncodedWordIsLegal.synth.1
    | setpol b => exact (Laws.EncodedWordIsLegal.setpol b).1
    | transmit k => exact (Laws.EncodedWordIsLegal.transmit k).1
    | startrepeat k => exact (Laws.EncodedWordIsLegal.startrepeat k).1
    | shutdown => exact Laws.EncodedWordIsLegal.shutdown.1

/-- Two rows that one word belongs to agree on the bits both masks cover. -/
theorem Pattern.fits_both {p q : Pattern} {w : Word} (hp : p.fits w = true) (hq : q.fits w = true) :
    p.pattern &&& q.mask = q.pattern &&& p.mask := by
  rw [← beq_iff_eq.1 hp, ← beq_iff_eq.1 hq, BitVec.and_assoc, BitVec.and_assoc, BitVec.and_comm p.mask]

/-- Two different rows of the table differ on a bit that both masks cover (R76). -/
theorem opcodeTable_disjoint : ∀ p ∈ opcodeTable, ∀ q ∈ opcodeTable,
    p.pattern &&& q.mask = q.pattern &&& p.mask → p = q := by
  decide

/-- Settles O2: the accepted words and the legal words are both the words of the commands. -/
theorem decodeAcceptsExactlyTheTable : Obligations.DecodeAcceptsExactlyTheTable := by
  intro w
  refine ⟨?_, fun i => encode_of_decode, fun p hp q hq hpw hqw => ?_⟩
  · simp only [decode_eq_ok_iff, legalWord_iff]
  · exact opcodeTable_disjoint p hp q hq (Pattern.fits_both hpw hqw)

/-- The operations R76 leaves unused are none of the six. -/
theorem opField_unused {op : BitVec 4} (h : op = 0x0#4 ∨ 0x7#4 ≤ op) :
    op ≠ 0x1#4 ∧ op ≠ 0x2#4 ∧ op ≠ 0x3#4 ∧ op ≠ 0x4#4 ∧ op ≠ 0x5#4 ∧ op ≠ 0x6#4 := by
  revert op
  decide

/-- An operand byte of 2 or more has a bit above bit 0 (R74). -/
theorem polarityRest_ne_zero {w : Word} (h : 2#8 ≤ immField w) : polarityRest w ≠ 0#7 := by
  intro hrest
  rw [immField_of_polarityRest hrest] at h
  generalize polarityOperand w = b at h
  revert b
  decide

/-- Settles O3, a clause for each reason of refusal. -/
theorem decodeTestsInOrder : Obligations.DecodeTestsInOrder := by
  intro w
  refine ⟨fun hz => if_pos hz, fun hz hop => ?_, fun hz hop himm => ?_, fun hz hop himm => ?_⟩
  · obtain ⟨h1, h2, h3, h4, h5, h6⟩ := opField_unused hop
    simp [decode, hz, h1, h2, h3, h4, h5, h6]
  · rcases hop with hop | hop <;> simp [decode, hz, hop, himm]
  · simp [decode, hz, hop, polarityRest_ne_zero himm]

/-- Settles O4: the decoder run on the words of the table. -/
theorem decodeOfTheSpecsWords : Obligations.DecodeOfTheSpecsWords := by
  unfold Obligations.DecodeOfTheSpecsWords
  decide

/-! ### Words that are only answered (O6, O7) -/

/-- The decoder refuses exactly the illegal words (R77). -/
theorem decode_of_illegal {w : Word} (h : legalWord w = false) : ∃ e, decode w = .error e := by
  cases hdecode : decode w with
  | error e => exact ⟨e, rfl⟩
  | ok i =>
    have hlegal := (legalWord_iff w).2 ⟨i, encode_of_decode hdecode⟩
    exact absurd (h.symm.trans hlegal) nofun

/-- A word the decoder refuses, where no command waits for its response, is answered as no command (R77). -/
theorem step_of_decode_error {s : State} {w : Word} {ms : List Move} {e : DecodeError} (hmoves : s.moves = .host w :: ms)
    (hfree : s.hostWaits = false) (hword : decode w = .error e) :
    step s = .next (illegalWord { s with moves := ms }) := by
  have hfree' : ({ s with moves := ms } : State).hostWaits = false := hfree
  rw [step_of_moves_cons hmoves]
  simp only [act, hostMove, hfree', hword]
  rfl

/-- Settles O6: an illegal word has no command, and its answer raises E_ILLEGAL. -/
theorem illegalWordIsOnlyAnswered : Obligations.IllegalWordIsOnlyAnswered := by
  intro s w ms hmoves hfree hdev hillegal
  obtain ⟨e, he⟩ := decode_of_illegal hillegal
  rw [step_of_decode_error hmoves hfree he]
  exact congrArg _ (if_neg hdev)

theorem resume_dev (i : Instr) (s : State) : (resume i s).dev = s.dev ∨ (resume i s).dev = .released := by
  cases i with
  | shutdown => exact .inr rfl
  | encode | synth | setpol | transmit | startrepeat => exact .inl (by simp [resume])

theorem CommandEffect.dev {i : Instr} {s t : State} (h : CommandEffect i s t) : t.dev = s.dev ∨ t.dev = .released := by
  cases h with
  | released => exact .inl rfl
  | waits => exact .inl (by simp)
  | runs => simpa using resume_dev i (arrive i s)

/-- All a step that is no reset does to DEV: nothing, or a SHUTDOWN. -/
theorem StepEffect.dev {m : Option Move} {u t : State} (h : StepEffect m u t) (hm : ∀ r, m ≠ some (.reset r)) :
    t.dev = u.dev ∨ t.dev = .released := by
  cases h with
  | command => exact (execState_effect _ u).dev
  | resume => exact resume_dev _ { u with held := none }
  | write => exact .inl (by split <;> simp)
  | illegal | encode | synth | tick | still | expiry | waitEnd | play | stop | reload => exact .inl (by simp [synthFrame])
  | reset => exact absurd rfl (hm _)

/-- Settles O7: with DEV = Released a command and an illegal word raise the same error. -/
theorem releasedAnswersEveryWord : Obligations.ReleasedAnswersEveryWord := by
  refine ⟨fun s w ms hmoves hfree hdev => ?_, fun s t hdev hno hstep => ?_⟩
  · cases hword : decode w with
    | ok i =>
      rw [stepRunsTheDecodedCommand s w ms i hmoves hfree hword]
      exact exec_released (s := { s with moves := ms }) hdev i
    | error e => exact (step_of_decode_error hmoves hfree hword).trans (congrArg _ (if_pos hdev))
  · have hkept : t.dev = s.dev ∨ t.dev = .released := (step_effect hstep).dev hno
    exact hkept.elim (·.trans hdev) id

/-! ### The schedule over every step (O39) -/

/-- The Cancel of an arriving command is all that its arrival does to the schedule. -/
theorem arrive_rpt (i : Instr) (s : State) :
    (arrive i s).rpt = s.rpt ∨ (cancelling i = true ∧ (arrive i s).rpt = .idle) := by
  unfold arrive
  split
  case isTrue hcancel => exact .inr ⟨hcancel, rfl⟩
  case isFalse => exact .inl rfl

theorem resume_rpt (i : Instr) (s : State) :
    (resume i s).rpt = s.rpt ∨ ∃ k, i = .startrepeat k ∧ (resume i s).rpt = .repeating k := by
  cases i with
  | startrepeat k =>
    by_cases hdev : s.dev = .ready
    · exact .inr ⟨k, rfl, by simp [resume, hdev]⟩
    · exact .inl (by simp [resume, hdev])
  | encode | synth | setpol | transmit | shutdown => exact .inl (by simp [resume])

/-- A command changes the schedule only as a cancelling one, and starts one only as STARTREPEAT (R143). -/
theorem CommandEffect.rpt {i : Instr} {s t : State} (h : CommandEffect i s t) :
    t.rpt = s.rpt ∨ (cancelling i = true ∧ (t.rpt = .idle ∨ ∃ k, i = .startrepeat k ∧ t.rpt = .repeating k)) := by
  have harrive := arrive_rpt i s
  cases h with
  | released => exact .inl rfl
  | waits => exact harrive.imp id (And.imp_right .inl)
  | runs =>
    rcases resume_rpt i (arrive i s) with hkept | ⟨k, rfl, hstart⟩
    · rw [hkept]
      exact harrive.imp id (And.imp_right .inl)
    · exact .inr ⟨rfl, .inr ⟨k, rfl, hstart⟩⟩

/-- All a step that is no reset does to the schedule. -/
theorem StepEffect.rpt {m : Option Move} {u t : State} (h : StepEffect m u t) (hm : ∀ r, m ≠ some (.reset r)) :
    t.rpt = u.rpt ∨
    (∃ w i, m = some (.host w) ∧ decode w = .ok i ∧ cancelling i = true ∧
      (t.rpt = .idle ∨ ∃ k, i = .startrepeat k ∧ t.rpt = .repeating k)) ∨
    (∃ k, u.held = some (.startrepeat k) ∧ t.rpt = .repeating k) := by
  cases h with
  | @command _ w i free word =>
    exact (execState_effect i u).rpt.imp id fun hchange => .inl ⟨w, i, rfl, word, hchange⟩
  | @resume _ _ i move flight held =>
    rcases resume_rpt i { u with held := none } with hkept | ⟨k, rfl, hstart⟩
    · exact .inl hkept
    · exact .inr (.inr ⟨k, held, hstart⟩)
  | write => exact .inl (by split <;> simp)
  | illegal | encode | synth | tick | still | expiry | waitEnd | play | stop | reload => exact .inl (by simp [synthFrame])
  | reset => exact absurd rfl (hm _)

/-- Settles O39, from what a step can do to the schedule. -/
theorem repeatChangesOnlyByKeyCommands : Obligations.RepeatChangesOnlyByKeyCommands := by
  intro s t hno hstep hchanged
  exact ((step_effect hstep).rpt hno).resolve_left hchanged

/-! ### The model's own bookkeeping over every step (O48) -/

/-- From `s` to `t` the list of moves and the tolerance are untouched. -/
def KeepsBookkeeping (s t : State) : Prop := t.moves = s.moves ∧ t.tol = s.tol

/-- From `s` to `t` at most one response is given. -/
def AnswersAtMostOnce (s t : State) : Prop := t.responses = s.responses ∨ ∃ c, t.responses = s.responses ++ [c]

theorem arrive_keepsBookkeeping (i : Instr) (s : State) : KeepsBookkeeping s (arrive i s) := by
  unfold arrive
  split <;> exact ⟨rfl, rfl⟩

theorem resume_keepsBookkeeping (i : Instr) (s : State) : KeepsBookkeeping s (resume i s) := by
  cases i <;> simp [KeepsBookkeeping, resume]

theorem CommandEffect.keepsBookkeeping {i : Instr} {s t : State} (h : CommandEffect i s t) : KeepsBookkeeping s t := by
  have harrive := arrive_keepsBookkeeping i s
  cases h with
  | released => exact ⟨rfl, rfl⟩
  | waits => exact harrive
  | runs =>
    have hrun := resume_keepsBookkeeping i (arrive i s)
    exact ⟨hrun.1.trans harrive.1, hrun.2.trans harrive.2⟩

/-- No step touches the rest of the list of moves or the tolerance; a reset is given both (log 20). -/
theorem StepEffect.keepsBookkeeping {m : Option Move} {u t : State} (h : StepEffect m u t) : KeepsBookkeeping u t := by
  cases h with
  | command => exact (execState_effect _ u).keepsBookkeeping
  | resume => exact resume_keepsBookkeeping _ { u with held := none }
  | write => split <;> exact ⟨rfl, rfl⟩
  | illegal | encode | synth | tick | still | expiry | waitEnd | play | stop | reload | reset =>
    simp [KeepsBookkeeping, synthFrame, startUp]

theorem raise_answersAtMostOnce (c : Code) (w : Bool) (s : State) : AnswersAtMostOnce s (raise c w s) := by
  cases w
  · exact .inl rfl
  · exact .inr ⟨c, rfl⟩

/-- A transaction ends with a response where a command waits, and with none else (R139). -/
theorem endTxn_answersAtMostOnce (c : Code) (x : Txn) (s : State) : AnswersAtMostOnce s (endTxn c x s) :=
  raise_answersAtMostOnce c (decide (x.src = .host)) s

theorem answered_answersAtMostOnce (ok : Bool) (d : DevCall) (g : Stage) (c : Code) (x : Txn) (s : State) :
    AnswersAtMostOnce s (if ok then goTo g x (logCall d s) else endTxn c x (logCall d s)) := by
  split
  · exact .inl rfl
  · exact endTxn_answersAtMostOnce c x (logCall d s)

theorem resume_answersAtMostOnce (i : Instr) (s : State) : AnswersAtMostOnce s (resume i s) := by
  cases i with
  | encode | setpol => exact .inr ⟨.ok, rfl⟩
  | shutdown => exact .inr ⟨.ok, shutdownPhase_responses s⟩
  | synth => cases hframe : s.fv <;> simp [AnswersAtMostOnce, resume, hframe]
  | transmit | startrepeat => by_cases hdev : s.dev = .ready <;> simp [AnswersAtMostOnce, resume, hdev]

theorem CommandEffect.answersAtMostOnce {i : Instr} {s t : State} (h : CommandEffect i s t) : AnswersAtMostOnce s t := by
  cases h with
  | released => exact raise_answersAtMostOnce _ true s
  | waits => exact .inl (by simp)
  | runs => simpa only [AnswersAtMostOnce, arrive_responses] using resume_answersAtMostOnce i (arrive i s)

/-- All a step that is no reset does to the record of responses (R70, log 16). -/
theorem StepEffect.answersAtMostOnce {m : Option Move} {u t : State} (h : StepEffect m u t)
    (hm : ∀ r, m ≠ some (.reset r)) : AnswersAtMostOnce u t := by
  cases h with
  | command => exact (execState_effect _ u).answersAtMostOnce
  | illegal => exact .inr ⟨_, illegalWord_responses u⟩
  | resume => exact resume_answersAtMostOnce _ { u with held := none }
  | write => exact answered_answersAtMostOnce _ _ .play .write _ u
  | play => exact answered_answersAtMostOnce _ _ .wait .play _ u
  | stop => exact answered_answersAtMostOnce _ _ .reload .stop _ u
  | @reload _ x ok => exact endTxn_answersAtMostOnce _ x (logCall (.reloadBuffer ok) u)
  | encode | synth | tick | still | expiry | waitEnd => exact .inl rfl
  | reset => exact absurd rfl (hm _)

/-- A reset starts the record of responses anew (log 16). -/
theorem StepEffect.responses_of_reset {r : Startup} {u t : State} (h : StepEffect (some (.reset r)) u t) :
    t.responses = [] := by
  cases h with
  | reset => rfl
  | still move => exact absurd rfl (move r)
  | encode move | synth move | resume move | tick move | waitEnd move => simp at move

/-- Settles O48: the effect of a step is made in the state with the move taken off the list. -/
theorem stepTakesOneMoveAndAnswersAtMostOnce : Obligations.StepTakesOneMoveAndAnswersAtMostOnce := by
  intro s t hstep
  have heffect := step_effect hstep
  obtain ⟨hmoves, htol⟩ := heffect.keepsBookkeeping
  exact ⟨hmoves, htol, heffect.answersAtMostOnce, fun r hr => (hr ▸ heffect).responses_of_reset⟩

/-! ### MODULATE: ENCODE then SYNTH (O26, O32) -/

/-- The two commands of MODULATE complete where they may go, and leave the frame of the key written over BUF (R80). -/
theorem exec_modulate {s : State} (hdev : s.dev ≠ .released) (hbusy : s.busy = false) (k : Key) :
    exec (.encode k) s = .next (encodePhase k s) ∧
    exec .synth (encodePhase k s) = .next (respond .ok (synthFrame (frameOf k) (encodePhase k s))) := by
  have hfree : ¬ s.busy = true := by simp [hbusy]
  exact ⟨congrArg _ ((if_neg hdev).trans (if_neg hfree)), congrArg _ ((if_neg hdev).trans (if_neg hfree))⟩

/-- Read as integers, the words SYNTH stores are the samples of the frame (R118). -/
theorem samples_synthFrame (s : State) (f : Frame) :
    Memory.samples (synthFrame f s).buf s.total = (List.range s.total).map (sampleValue s f) := by
  refine List.map_congr_left fun i hi => ?_
  rw [read_synthFrame, if_pos (List.mem_range.1 hi), Option.getD_some, toInt_ofInt_sampleValue]

/-- Settles O32: the samples depend on the frame and on registers that ENCODE leaves alone. -/
theorem modulateLeavesTheTransmittedSamples : Obligations.ModulateLeavesTheTransmittedSamples := by
  intro k s hdev hbusy
  obtain ⟨hencode, hsynth⟩ := exec_modulate hdev hbusy k
  exact ⟨_, _, hencode, hsynth, rfl, samples_synthFrame (encodePhase k s) (frameOf k), rfl⟩

/-- Sample `i` of segment `j` is owned by bit `j` (R104). -/
theorem bitIndex_segment {spb i j : Nat} (hi : i < spb) (hj : j < 11) : bitIndex spb (j * spb + i) = j := by
  have hquot : (j * spb + i) / spb = j := by
    rw [Nat.mul_comm, Nat.mul_add_div (by omega), Nat.div_eq_of_lt hi, Nat.add_zero]
  rw [bitIndex, hquot, Config.NBITS, Nat.mod_eq_of_lt hj]

/-- The index of a sample of a segment is inside BUF (R107). -/
theorem segment_lt_total {spb i j : Nat} (hi : i < spb) (hj : j < 11) : j * spb + i < 11 * spb :=
  calc j * spb + i < (j + 1) * spb := by rw [Nat.succ_mul]; omega
    _ ≤ 11 * spb := Nat.mul_le_mul_right spb hj

/-- A sample sounds where its frame bit is 1 and the carrier is not at a zero, with either polarity (R106, R119). -/
theorem sampleValue_ne_zero_iff (s : State) (f : Frame) (i : Nat) :
    sampleValue s f i ≠ 0 ↔ f.getLsbD (bitIndex s.spb i) = true ∧ sinq s.tol s.fs (phaseAt s.fs i) ≠ 0 := by
  unfold sampleValue
  split
  case isTrue hbit => rcases polSign_cases s.pol with hsign | hsign <;> simp [hbit, hsign]
  case isFalse hbit => simp [hbit]

/-- The stored word is zero exactly where the sample is. -/
theorem ofInt_sampleValue_ne_zero_iff (s : State) (f : Frame) (i : Nat) :
    BitVec.ofInt 16 (sampleValue s f i) ≠ 0#16 ↔ sampleValue s f i ≠ 0 := by
  rw [Ne, ← BitVec.toInt_inj, toInt_ofInt_sampleValue, BitVec.toInt_zero]

/-- A frame written over BUF reads back, where the carrier is off zero somewhere in each segment (R120). -/
theorem readBack_synthFrame (s : State) (f : Frame) (htotal : s.total = 11 * s.spb)
    (hcarrier : ∀ j < 11, ∃ i < s.spb, sinq s.tol s.fs (phaseAt s.fs (j * s.spb + i)) ≠ 0) :
    readBack s.spb (synthFrame f s).buf = (List.range 11).map (fun j => f.getLsbD j) := by
  refine List.map_congr_left fun j hj => ?_
  have hj : j < 11 := List.mem_range.1 hj
  have hsound (i : Nat) (hi : i < s.spb) : (Memory.read (synthFrame f s).buf (j * s.spb + i)).any (· != 0#16) = true ↔
      f.getLsbD j = true ∧ sinq s.tol s.fs (phaseAt s.fs (j * s.spb + i)) ≠ 0 := by
    rw [read_synthFrame, if_pos (htotal ▸ segment_lt_total hi hj), Option.any_some, bne_iff_ne,
      ofInt_sampleValue_ne_zero_iff, sampleValue_ne_zero_iff, bitIndex_segment hi hj]
  rw [Bool.eq_iff_iff, List.any_eq_true]
  constructor
  · rintro ⟨i, hi, hread⟩
    exact ((hsound i (List.mem_range.1 hi)).1 hread).1
  · intro hbit
    obtain ⟨i, hi, hsine⟩ := hcarrier j hj
    exact ⟨i, List.mem_range.2 hi, (hsound i hi).2 ⟨hbit, hsine⟩⟩

/-- At the two rates of the vectors the second sample of every segment is off the carrier's zeros. -/
theorem sinRef_second_sample_ne_zero {fs : Nat} (hfs : fs = 44100 ∨ fs = 48000) :
    ∀ j < 11, 1 < Config.samplesPerBit fs ∧ sinRef fs (phaseAt fs (j * Config.samplesPerBit fs + 1)) ≠ 0 := by
  rcases hfs with rfl | rfl <;> decide +kernel

/-- Settles O26: every on segment holds a sample that sounds, and every off segment is silent. -/
theorem bufferReadsBackAsTheFrame : Obligations.BufferReadsBackAsTheFrame := by
  intro s k hdev hbusy htol hfs hspb htotal
  obtain ⟨hencode, hsynth⟩ := exec_modulate hdev hbusy k
  refine ⟨_, _, hencode, hsynth, readBack_synthFrame (encodePhase k s) (frameOf k) htotal fun j hj => ?_⟩
  obtain ⟨hlong, hsine⟩ := sinRef_second_sample_ne_zero hfs j hj
  refine ⟨1, by simpa [hspb] using hlong, ?_⟩
  simpa [sinq, htol, hspb] using hsine

end Sys2Proof.Machine

namespace Sys2Proof.Machine

/-! ### The frame of a key and ENCODE (O9 to O12) -/

/-- How many of the bits of `w` at the places of `l` are 1. -/
def onesAt {n : Nat} (w : BitVec n) (l : List Nat) : Nat := (l.filter (fun j => w.getLsbD j)).length

theorem onesAt_append {n : Nat} (w : BitVec n) (l m : List Nat) : onesAt w (l ++ m) = onesAt w l + onesAt w m := by
  simp [onesAt]

theorem onesAt_singleton {n : Nat} (w : BitVec n) (j : Nat) : onesAt w [j] = (w.getLsbD j).toNat := by
  cases hbit : w.getLsbD j <;> simp [onesAt, hbit]

theorem onesAt_le_length {n : Nat} (w : BitVec n) (l : List Nat) : onesAt w l ≤ l.length :=
  List.length_filter_le _ l

/-- Complementing a key swaps its ones and its zeros. -/
theorem onesAt_add_onesAt_not (k : Key) : onesAt k (List.range 8) + onesAt (~~~ k) (List.range 8) = 8 := by
  have hnot : (List.range 8).filter (fun j => (~~~ k).getLsbD j) = (List.range 8).filter (fun j => !k.getLsbD j) :=
    List.filter_congr fun j hj => by simp [List.mem_range.1 hj]
  have hsplit := List.length_eq_length_filter_add (l := List.range 8) (fun j => k.getLsbD j)
  rw [onesAt, onesAt, hnot, ← hsplit, List.length_range]

theorem boolToNat_not (b : Bool) : (!b).toNat = 1 - b.toNat := by
  cases b <;> rfl

/-- An XOR over a list is the number of its ones modulo 2 (R92). -/
theorem toNat_foldl_xor (p : Nat → Bool) (l : List Nat) (b : Bool) :
    (l.foldl (fun b j => b ^^ p j) b).toNat = (b.toNat + (l.filter p).length) % 2 := by
  induction l generalizing b with
  | nil => exact (Nat.mod_eq_of_lt b.toNat_lt).symm
  | cons j l ih =>
    rw [List.foldl_cons, ih]
    cases hp : p j with
    | false => rw [Bool.xor_false, List.filter_cons_of_neg (by simp [hp])]
    | true =>
      have hb := b.toNat_lt
      rw [Bool.xor_true, boolToNat_not, List.filter_cons_of_pos hp, List.length_cons]
      omega

/-- The three folds of R92 bring all eight bits together in bit 0. -/
theorem parity_bit (k : Key) : (parity k).getLsbD 0 = (List.range 8).foldl (fun b j => b ^^ k.getLsbD j) false := by
  simp [parity, List.range_succ, Bool.xor_left_comm]

/-- A word of one bit is the number of its bit. -/
theorem toNat_eq_toNat_getLsbD_zero (b : BitVec 1) : b.toNat = (b.getLsbD 0).toNat := by
  revert b
  decide

/-- The parity is the number of ones modulo 2 (R92). -/
theorem parity_toNat (k : Key) : (parity k).toNat = onesAt k (List.range 8) % 2 := by
  rw [toNat_eq_toNat_getLsbD_zero, parity_bit, toNat_foldl_xor, Bool.toNat_false, Nat.zero_add, onesAt]

/-- Eight is even, so a key and its complement have the same parity (R92). -/
theorem parity_not (k : Key) : parity (~~~ k) = parity k := by
  have hones := onesAt_add_onesAt_not k
  refine BitVec.eq_of_toNat_eq ?_
  rw [parity_toNat, parity_toNat]
  omega

/-- The four fields of a frame in the order they are sent (R91). -/
theorem frameOf_getLsbD (k : Key) (j : Nat) :
    (frameOf k).getLsbD j =
      if j < 1 then (1#1).getLsbD j
      else if j - 1 < 8 then (~~~ k).getLsbD (j - 1)
      else if j - 1 - 8 < 1 then (~~~ parity k).getLsbD (j - 1 - 8)
      else (0#1).getLsbD (j - 1 - 8 - 1) := by
  rw [← BitVec.getLsbD_append, ← BitVec.getLsbD_append, ← BitVec.getLsbD_append]
  rfl

theorem frameOf_start (k : Key) : (frameOf k).getLsbD 0 = true := by
  simp [frameOf_getLsbD]

theorem frameOf_data (k : Key) {j : Nat} (hj : j < 8) : (frameOf k).getLsbD (j + 1) = !k.getLsbD j := by
  simp [frameOf_getLsbD, hj]

theorem frameOf_parity (k : Key) : (frameOf k).getLsbD 9 = !(parity k).getLsbD 0 := by
  rw [frameOf_getLsbD]
  simp

theorem frameOf_stop (k : Key) : (frameOf k).getLsbD 10 = false := by
  rw [frameOf_getLsbD]
  simp

/-- The bits of `y` stand below those of `x`. -/
theorem toNat_append_eq_mul_add {m n : Nat} (x : BitVec m) (y : BitVec n) :
    (x ++ y).toNat = 2 ^ n * x.toNat + y.toNat := by
  rw [BitVec.toNat_append, ← Nat.shiftLeft_add_eq_or_of_lt y.isLt, Nat.shiftLeft_eq, Nat.mul_comm]

/-- The frame as a number (R94). -/
theorem frameOf_toNat (k : Key) :
    (frameOf k).toNat = 1 + 2 * (255 - k.toNat) + 512 * (1 - (parity k).toNat) := by
  have hfields : (frameOf k).toNat = (0#1 ++ ~~~ parity k ++ ~~~ k ++ 1#1).toNat := rfl
  simp only [hfields, toNat_append_eq_mul_add, BitVec.toNat_not, BitVec.toNat_ofNat]
  omega

theorem frameOf_injective {k l : Key} (h : frameOf k = frameOf l) : k = l := by
  refine BitVec.eq_of_getLsbD_eq fun j hj => ?_
  have hbit := congrArg (fun f => f.getLsbD (j + 1)) h
  simpa [frameOf_data, hj] using hbit

/-- The parity bit makes the ones of the data bits and itself odd (R95). -/
theorem onesAt_frameOf_data_parity (k : Key) : onesAt (frameOf k) (List.range' 1 9) % 2 = 1 := by
  have hplaces : List.range' 1 9 = (List.range 8).map (· + 1) ++ [9] := rfl
  have hdata : onesAt (frameOf k) ((List.range 8).map (· + 1)) = onesAt (~~~ k) (List.range 8) := by
    rw [onesAt, List.filter_map, List.length_map, onesAt]
    refine congrArg _ (List.filter_congr fun j hj => ?_)
    have hj : j < 8 := List.mem_range.1 hj
    simp [frameOf_data k hj, hj]
  have hparity : onesAt (frameOf k) [9] = 1 - (parity k).toNat := by
    rw [onesAt_singleton, frameOf_parity, toNat_eq_toNat_getLsbD_zero, boolToNat_not]
  have hones := onesAt_add_onesAt_not k
  rw [hplaces, onesAt_append, hdata, hparity, parity_toNat]
  omega

/-- Settles O9: where it may go, ENCODE gives the frame whose fields are weighed by their places. -/
theorem encodeLoadsKeyAndFrame : Obligations.EncodeLoadsKeyAndFrame := by
  intro k s
  refine ⟨fun hdev hbusy => ⟨frameOf k, (exec_modulate hdev hbusy k).1, ?_⟩, fun hdev hbusy => ?_,
    fun hdev => exec_released hdev (.encode k)⟩
  · rw [frameOf_toNat, parity_toNat, onesAt]
  · rw [exec_eq, execState, if_neg hdev, if_pos hbusy, hold]

/-- Settles O10, field by field. -/
theorem frameLayout : Obligations.FrameLayout :=
  fun k => ⟨frameOf_start k, fun _ => frameOf_data k, frameOf_parity k, frameOf_stop k⟩

/-- Settles O11: the fold is the XOR of the bits, and an XOR is 1 where the number of ones is odd. -/
theorem parityIsTheXorOfTheBits : Obligations.ParityIsTheXorOfTheBits :=
  fun k => ⟨parity_bit k, parity_toNat k, parity_not k, frameOf_parity k⟩

/-- Settles O12: the data bits give the key back, and the start bit and the odd nine after it give the bounds. -/
theorem framesAreInjectiveAndOdd : Obligations.FramesAreInjectiveAndOdd := by
  refine ⟨fun k l => frameOf_injective, onesAt_frameOf_data_parity, fun k => ?_⟩
  have hodd := onesAt_frameOf_data_parity k
  have hnine : onesAt (frameOf k) (List.range' 1 9) ≤ 9 := onesAt_le_length _ _
  have hplaces : List.range 11 = [0] ++ List.range' 1 9 ++ [10] := rfl
  have hones : onesAt (frameOf k) (List.range 11) = 1 + onesAt (frameOf k) (List.range' 1 9) := by
    rw [hplaces, onesAt_append, onesAt_append, onesAt_singleton, onesAt_singleton, frameOf_start, frameOf_stop]
    rfl
  rw [← onesAt, hones]
  omega

end Sys2Proof.Machine

namespace Sys2Proof.Machine

/-! ### The sine series at the cut pi (O24) -/

/-- Term `j` of the sine series at `x`, without its sign. -/
noncomputable def seriesTerm (x : ℝ) (j : ℕ) : ℝ := x ^ (2 * j + 1) / (2 * j + 1).factorial

theorem seriesTerm_succ (x : ℝ) (j : ℕ) :
    seriesTerm x (j + 1) = seriesTerm x j * (x ^ 2 / ((2 * j + 3) * (2 * j + 2))) := by
  have hfact : (2 * (j + 1) + 1).factorial = (2 * j + 3) * ((2 * j + 2) * (2 * j + 1).factorial) := rfl
  have hpos : ((2 * j + 1).factorial : ℝ) ≠ 0 := by positivity
  rw [seriesTerm, seriesTerm, hfact]
  push_cast
  field_simp
  ring

theorem seriesTerm_nonneg {x : ℝ} (h0 : 0 ≤ x) (j : ℕ) : 0 ≤ seriesTerm x j := by
  unfold seriesTerm
  positivity

theorem seriesTerm_antitone {x : ℝ} (h0 : 0 ≤ x) (h2 : x ≤ 2) : Antitone (seriesTerm x) := by
  refine antitone_nat_of_succ_le fun j => ?_
  rw [seriesTerm_succ]
  refine mul_le_of_le_one_right (seriesTerm_nonneg h0 j) ((div_le_one (by positivity)).2 ?_)
  nlinarith [(Nat.cast_nonneg j : (0 : ℝ) ≤ j)]

theorem seriesTerm_summable (x : ℝ) : Summable (seriesTerm x) :=
  (Real.summable_pow_div_factorial x).comp_injective (i := fun j => 2 * j + 1) fun i j h => by simpa using h

/-- The sine series alternates, so it errs by no more than the first term left out. -/
theorem abs_sin_sub_series_le {x : ℝ} (h0 : 0 ≤ x) (h2 : x ≤ 2) (n : ℕ) :
    |Real.sin x - ∑ j ∈ Finset.range n, (-1) ^ j * seriesTerm x j| ≤ seriesTerm x n := by
  have hseries : Real.sin x = ∑' j, (-1) ^ j * seriesTerm x j := by
    rw [Real.sin_eq_tsum]
    exact tsum_congr fun j => mul_div_assoc _ _ _
  rw [hseries]
  exact alternating_series_error_bound _ (seriesTerm_antitone h0 h2) (seriesTerm_summable x) n

theorem alternatingSum_eq_sum (f : ℕ → ℕ) (n : ℕ) :
    (alternatingSum f n : ℝ) = ∑ j ∈ Finset.range n, (-1) ^ j * (f j : ℝ) := by
  induction n with
  | zero => simp [alternatingSum]
  | succ n ih =>
    rw [Finset.sum_range_succ, ← ih, alternatingSum]
    rcases Nat.mod_two_eq_zero_or_one n with hn | hn
    · simp [hn, (Nat.even_iff.2 hn).neg_one_pow]
    · simp [hn, (Nat.odd_iff.2 hn).neg_one_pow]

/-- The integer terms are the terms of the series at `a / b` over the common denominator. -/
theorem sineTerm_eq {a b j : ℕ} (hb : 0 < b) (hj : j ≤ 12) :
    (sineTerm a b j : ℝ) = Nat.factorial 25 * b ^ 25 * seriesTerm (a / b) j := by
  have hdvd : (2 * j + 1).factorial ∣ Nat.factorial 25 := Nat.factorial_dvd_factorial (by omega)
  have hpow : (b : ℝ) ^ 25 = b ^ (2 * (12 - j)) * b ^ (2 * j + 1) := by
    rw [← pow_add]
    congr 1
    omega
  have hb' : (b : ℝ) ≠ 0 := by positivity
  have hfact : ((2 * j + 1).factorial : ℝ) ≠ 0 := by positivity
  rw [sineTerm, seriesTerm, Nat.cast_mul, Nat.cast_div hdvd hfact, hpow, div_pow]
  push_cast
  field_simp

/-- The angle `2 * pi * n / d` with pi cut to `piDigits`. -/
noncomputable def cutAngle (n d : ℕ) : ℝ := (2 * n * piDigits : ℕ) / (d * piScale : ℕ)

/-- The thirteen terms of the sine series that the model sums, as a real. -/
noncomputable def seriesSine (n d : ℕ) : ℝ := ∑ j ∈ Finset.range 13, (-1) ^ j * seriesTerm (cutAngle n d) j

theorem piScale_pos : 0 < piScale := by decide

theorem sineDenominator_pos {d : ℕ} (hd : 0 < d) : 0 < sineDenominator d :=
  Nat.mul_pos (Nat.factorial_pos 25) (Nat.pow_pos (Nat.mul_pos hd piScale_pos))

theorem sineNumerator_eq (n : ℕ) {d : ℕ} (hd : 0 < d) :
    (sineNumerator n d : ℝ) = sineDenominator d * seriesSine n d := by
  rw [sineNumerator, alternatingSum_eq_sum, seriesSine, Finset.mul_sum]
  refine Finset.sum_congr rfl fun j hj => ?_
  rw [sineTerm_eq (Nat.mul_pos hd piScale_pos) (by have := Finset.mem_range.1 hj; omega), sineDenominator, cutAngle]
  push_cast
  ring

/-- `sineEnd` is what its doc comment says, over the reals. -/
theorem sineEnd_eq_floor (n : ℕ) {d : ℕ} (hd : 0 < d) (e : ℤ) :
    sineEnd n d e = ⌊Config.AMAX * seriesSine n d + 1 / 2 + e * Config.AMAX / piScale⌋ := by
  have hpos : (0 : ℤ) < 2 * piScale * sineDenominator d :=
    mul_pos (by decide) (mod_cast sineDenominator_pos hd)
  have hP : (piScale : ℝ) ≠ 0 := mod_cast piScale_pos.ne'
  have hD : (sineDenominator d : ℝ) ≠ 0 := mod_cast (sineDenominator_pos hd).ne'
  have hvalue : (Config.AMAX : ℝ) * seriesSine n d + 1 / 2 + e * Config.AMAX / piScale =
      ((2 * piScale * Config.AMAX * sineNumerator n d + (piScale + 2 * e * Config.AMAX) * sineDenominator d : ℤ) : ℝ) /
        ((2 * piScale * sineDenominator d : ℤ) : ℝ) := by
    push_cast
    rw [sineNumerator_eq n hd]
    field_simp
    ring
  rw [hvalue, Int.floor_div_cast_of_nonneg hpos.le, Int.floor_intCast, sineEnd]

/-- Twenty digits of pi put the cut angle close below the angle, on the first quarter turn. -/
theorem cutAngle_bounds {n d : ℕ} (hd : 0 < d) (hn : 4 * n ≤ d) :
    0 ≤ cutAngle n d ∧ cutAngle n d ≤ 1.6 ∧ |2 * Real.pi * n / d - cutAngle n d| ≤ 1 / 2 / 10 ^ 20 := by
  have hdr : (0 : ℝ) < d := mod_cast hd
  have hquarter : (n : ℝ) / d ≤ 1 / 4 := by
    rw [div_le_iff₀ hdr]
    have : (4 : ℝ) * n ≤ d := mod_cast hn
    linarith
  have hturn : 0 ≤ (n : ℝ) / d := by positivity
  have hcut : cutAngle n d = 2 * (piDigits / piScale : ℝ) * (n / d) := by
    rw [cutAngle]
    push_cast
    field_simp
  have hangle : 2 * Real.pi * n / d = 2 * Real.pi * (n / d) := mul_div_assoc _ _ _
  have hdigits : (piDigits / piScale : ℝ) = 3.14159265358979323846 := by norm_num [piDigits, piScale]
  have hlow := Real.pi_gt_d20
  have hhigh := Real.pi_lt_d20
  rw [hangle, hcut, hdigits]
  refine ⟨by positivity, by linarith, ?_⟩
  rw [← sub_mul, ← mul_sub, abs_of_nonneg (by apply mul_nonneg _ hturn; linarith)]
  nlinarith

theorem seriesTerm_thirteen_le {x : ℝ} (h0 : 0 ≤ x) (h1 : x ≤ 1.6) : seriesTerm x 13 ≤ 1 / 2 / 10 ^ 20 := by
  have hpow : x ^ 27 ≤ 1.6 ^ 27 := pow_le_pow_left₀ h0 h1 27
  rw [seriesTerm, div_le_iff₀ (by positivity)]
  refine hpow.trans ?_
  norm_num [Nat.factorial]

/-- Cutting pi and cutting the series err by half a unit of the twentieth place each. -/
theorem abs_sin_sub_seriesSine_le {n d : ℕ} (hd : 0 < d) (hn : 4 * n ≤ d) :
    |Real.sin (2 * Real.pi * n / d) - seriesSine n d| ≤ 1 / piScale := by
  obtain ⟨h0, h1, hangle⟩ := cutAngle_bounds hd hn
  have hscale : (1 / piScale : ℝ) = 1 / 2 / 10 ^ 20 + 1 / 2 / 10 ^ 20 := by norm_num [piScale]
  rw [hscale]
  calc |Real.sin (2 * Real.pi * n / d) - seriesSine n d|
      ≤ |Real.sin (2 * Real.pi * n / d) - Real.sin (cutAngle n d)| + |Real.sin (cutAngle n d) - seriesSine n d| :=
        abs_sub_le _ _ _
    _ ≤ 1 / 2 / 10 ^ 20 + 1 / 2 / 10 ^ 20 :=
        add_le_add ((Real.abs_sin_sub_sin_le _ _).trans hangle)
          ((abs_sin_sub_series_le h0 (h1.trans (by norm_num)) 13).trans (seriesTerm_thirteen_le h0 h1))

/-! ### The reference of the sine unit over the reals (O24) -/

theorem rhaz_of_nonneg {x : ℝ} (h : 0 ≤ x) : rhaz x = ⌊x + 1 / 2⌋ := if_pos h

@[simp] theorem rhaz_zero : rhaz 0 = 0 := by norm_num [rhaz]

/-- Ties go away from zero on both sides, so rounding is odd (R111). -/
@[simp] theorem rhaz_neg (x : ℝ) : rhaz (-x) = -rhaz x := by
  rcases lt_trichotomy x 0 with h | h | h
  · simp [rhaz, h.le, h.not_ge]
  · simp [h]
  · simp [rhaz, h.le, h.not_ge]

theorem exactSine_eq_floor {n d : ℕ} (h : 0 ≤ Real.sin (2 * Real.pi * n / d)) :
    exactSine d n = ⌊Config.AMAX * Real.sin (2 * Real.pi * n / d) + 1 / 2⌋ :=
  rhaz_of_nonneg (mul_nonneg (Nat.cast_nonneg _) h)

/-- The reference depends on the phase over the rate alone. -/
theorem exactSine_congr {n d m e : ℕ} (h : (n : ℝ) / d = m / e) : exactSine d n = exactSine e m := by
  rw [exactSine, exactSine, mul_div_assoc, h, ← mul_div_assoc]

theorem exactSine_mod {d : ℕ} (hd : 0 < d) (n : ℕ) : exactSine d (n % d) = exactSine d n := by
  have hdr : (d : ℝ) ≠ 0 := by positivity
  have hsplit : (n : ℝ) = (n % d : ℕ) + d * (n / d : ℕ) := mod_cast (Nat.mod_add_div n d).symm
  have hangle : 2 * Real.pi * ((n % d : ℕ) : ℝ) / d = 2 * Real.pi * n / d - (n / d : ℕ) * (2 * Real.pi) := by
    rw [hsplit]
    field_simp
    ring
  rw [exactSine, exactSine, hangle, Real.sin_sub_nat_mul_two_pi]

theorem exactSine_sub {d n : ℕ} (hd : 0 < d) (hn : n ≤ d) : exactSine d (d - n) = -exactSine d n := by
  have hdr : (d : ℝ) ≠ 0 := by positivity
  have hangle : 2 * Real.pi * ((d - n : ℕ) : ℝ) / d = 2 * Real.pi - 2 * Real.pi * n / d := by
    rw [Nat.cast_sub hn]
    field_simp
  rw [exactSine, exactSine, hangle, Real.sin_two_pi_sub, mul_neg, rhaz_neg]

/-- The reference is symmetric about the quarter turn. -/
theorem exactSine_half_sub {d n : ℕ} (hd : 0 < d) (hn : 2 * n ≤ d) :
    exactSine (2 * d) (d - 2 * n) = exactSine d n := by
  have hdr : (d : ℝ) ≠ 0 := by positivity
  have hangle : 2 * Real.pi * ((d - 2 * n : ℕ) : ℝ) / (2 * d : ℕ) = Real.pi - 2 * Real.pi * n / d := by
    rw [Nat.cast_sub hn]
    push_cast
    field_simp
  rw [exactSine, exactSine, hangle, Real.sin_pi_sub]

theorem sin_nonneg_of_first_quarter {n d : ℕ} (hn : 4 * n ≤ d) : 0 ≤ Real.sin (2 * Real.pi * n / d) := by
  have hpi := Real.pi_pos
  refine Real.sin_nonneg_of_nonneg_of_le_pi (by positivity) (div_le_of_le_mul₀ (by positivity) hpi.le ?_)
  have : (4 : ℝ) * n ≤ d := mod_cast hn
  nlinarith

/-- The two ends that the model rounds hold the reference, lie in its range and are at most 1 apart. -/
theorem sineEnd_bounds {n d : ℕ} (hd : 0 < d) (hn : 4 * n ≤ d) :
    0 ≤ sineEnd n d (-1) ∧ sineEnd n d (-1) ≤ exactSine d n ∧ exactSine d n ≤ sineEnd n d 1 ∧
      sineEnd n d 1 ≤ Config.AMAX ∧ sineEnd n d 1 ≤ sineEnd n d (-1) + 1 := by
  have hsin := sin_nonneg_of_first_quarter hn
  have hone := Real.sin_le_one (2 * Real.pi * n / d)
  obtain ⟨hlow, hhigh⟩ := abs_le.1 (abs_sin_sub_seriesSine_le hd hn)
  have hscale : (piScale : ℝ) = 10 ^ 20 := by norm_num [piScale]
  have hamax : (Config.AMAX : ℝ) = 32767 := by norm_num [Config.AMAX]
  rw [hscale] at hlow hhigh
  rw [exactSine_eq_floor hsin, sineEnd_eq_floor n hd, sineEnd_eq_floor n hd, ← Int.floor_add_one]
  refine ⟨Int.floor_nonneg.2 ?_, Int.floor_le_floor ?_, Int.floor_le_floor ?_, Int.floor_le_iff.2 ?_,
    Int.floor_le_floor ?_⟩
  all_goals
    push_cast
    rw [hamax, hscale]
    linarith

/-- The exact comparison of the sine unit, against the rounded sine. -/
theorem sineReaches_iff_le_exactSine {n d : ℕ} {v : ℤ} (hd : 0 < d) (hn : 4 * n ≤ d) (h0 : 0 < v)
    (h1 : v ≤ Config.AMAX) : sineReaches n d v = true ↔ v ≤ exactSine d n := by
  rw [sineReaches_iff hd hn h0 h1, exactSine_eq_floor (sin_nonneg_of_first_quarter hn), Int.le_floor, sub_le_iff_le_add]

theorem reducedSine_eq_exactSine {n d : ℕ} (hd : 0 < d) (hn : 4 * n ≤ d) : reducedSine n d = exactSine d n := by
  obtain ⟨h0, hlow, hhigh, h1, hwidth⟩ := sineEnd_bounds hd hn
  unfold reducedSine
  split
  case isTrue hdecided =>
    have hequal : sineEnd n d (-1) = sineEnd n d 1 := eq_of_beq hdecided
    omega
  case isFalse hopen =>
    have hdiffer : sineEnd n d (-1) ≠ sineEnd n d 1 := fun h => hopen (beq_iff_eq.2 h)
    have hreach := sineReaches_iff_le_exactSine hd hn (v := sineEnd n d 1) (by omega) h1
    split
    case isTrue hyes =>
      have := hreach.1 hyes
      omega
    case isFalse hno =>
      have := mt hreach.2 hno
      omega

/-- Lowest terms do not change the angle, and the cut does not act. -/
theorem quarterSine_eq_exactSine {n d : ℕ} (hd : 0 < d) (hn : 4 * n ≤ d) : quarterSine n d = exactSine d n := by
  have hg : 0 < Nat.gcd n d := Nat.gcd_pos_of_pos_right n hd
  have hreduced : exactSine (d / Nat.gcd n d) (n / Nat.gcd n d) = exactSine d n :=
    exactSine_congr (Nat.cast_div_div_div_cancel_right (Nat.gcd_dvd_right n d) (Nat.gcd_dvd_left n d))
  have hquarter : 4 * (n / Nat.gcd n d) ≤ d / Nat.gcd n d := by
    rw [← Nat.mul_div_assoc 4 (Nat.gcd_dvd_left n d)]
    exact Nat.div_le_div_right hn
  obtain ⟨h0, hlow, hhigh, h1, -⟩ := sineEnd_bounds hd hn
  rw [quarterSine, reducedSine_eq_exactSine (Nat.div_gcd_pos_of_pos_right n hd) hquarter, hreduced,
    cut_of_mem (by omega) (by omega)]

theorem halfReference_eq_exactSine {fs h : ℕ} (hfs : 0 < fs) (hh : 2 * h ≤ fs) :
    halfReference fs h = exactSine fs h := by
  have hfsr : (fs : ℝ) ≠ 0 := by positivity
  unfold halfReference
  split
  case isTrue hend =>
    have hsin : Real.sin (2 * Real.pi * h / fs) = 0 := by
      rcases hend with rfl | hhalf
      · simp
      · have hangle : 2 * Real.pi * h / fs = Real.pi := by
          rw [div_eq_iff hfsr, ← hhalf]
          push_cast
          ring
        rw [hangle, Real.sin_pi]
    rw [exactSine, hsin, mul_zero, rhaz_zero]
  case isFalse =>
    rw [quarterSine_eq_exactSine (by omega) (by omega)]
    rcases le_total (2 * h) (fs - 2 * h) with hle | hle
    · rw [min_eq_left hle]
      refine exactSine_congr ?_
      push_cast
      field_simp
    · rw [min_eq_right hle, exactSine_half_sub hfs hh]

theorem sinRef_eq_exactSine {fs p : ℕ} (hfs : 0 < fs) (hp : p ≤ fs) : sinRef fs p = exactSine fs p := by
  unfold sinRef oddFold
  split
  case isTrue hhalf => exact halfReference_eq_exactSine hfs hhalf
  case isFalse hhalf => rw [halfReference_eq_exactSine hfs (by omega), exactSine_sub hfs hp, neg_neg]

/-- Settles O24: the two rounded ends and the exact comparison leave no other integer. -/
theorem referenceIsTheRoundedSine : Obligations.ReferenceIsTheRoundedSine :=
  fun _ _ hfs hp => sinRef_eq_exactSine hfs hp.le

/-! ### The sine unit at every tolerance and the lookup table (O22, O23) -/

theorem halfReference_of_zero {fs h : ℕ} (hzero : h = 0 ∨ 2 * h = fs) : halfReference fs h = 0 := if_pos hzero

theorem halfUnit_of_zero (tol : ℕ) {fs h : ℕ} (hzero : h = 0 ∨ 2 * h = fs) : halfUnit tol fs h = 0 := if_pos hzero

/-- The reference stays in range as it stands (R116). -/
theorem cut_halfReference (fs h : ℕ) : cut Config.AMAX (halfReference fs h) = halfReference fs h :=
  cut_of_mem (halfReference_bounds fs h).1 (halfReference_bounds fs h).2

/-- S1 on the first half turn: the unit departs by no more than the tolerance (R113). -/
theorem abs_halfUnit_sub_le (tol fs h : ℕ) : |halfUnit tol fs h - halfReference fs h| ≤ tol := by
  unfold halfUnit
  split
  case isTrue hzero => simp [halfReference_of_zero hzero]
  case isFalse =>
    calc |cut Config.AMAX (halfReference fs h + cut tol (Config.sineDeviation fs h)) - halfReference fs h|
        = |cut Config.AMAX (halfReference fs h + cut tol (Config.sineDeviation fs h)) -
            cut Config.AMAX (halfReference fs h)| := by rw [cut_halfReference]
      _ ≤ |halfReference fs h + cut tol (Config.sineDeviation fs h) - halfReference fs h| := abs_cut_sub_cut_le _ _ _
      _ = |cut tol (Config.sineDeviation fs h)| := by rw [add_sub_cancel_left]
      _ ≤ tol := abs_le.2 ⟨neg_le_cut _ _, cut_le _ _⟩

/-- With tolerance 0 the unit on the first half turn is the reference, so the sine unit has one form at every tolerance. -/
theorem sinq_eq_oddFold (tol fs p : ℕ) : sinq tol fs p = oddFold (halfUnit tol fs) fs p := by
  unfold sinq
  split
  case isTrue hzero =>
    have hunit : halfUnit tol fs = halfReference fs := funext fun h => by
      have habs := abs_halfUnit_sub_le tol fs h
      rw [hzero, Nat.cast_zero] at habs
      rw [hzero]
      exact sub_eq_zero.1 (abs_nonpos_iff.1 habs)
    rw [sinRef, hunit]
  case isFalse => rfl

theorem sinq_zero_tol (fs p : ℕ) : sinq 0 fs p = sinRef fs p := rfl

theorem oddFold_of_zero {f : ℕ → ℤ} {fs p : ℕ} (hf : ∀ h, h = 0 ∨ 2 * h = fs → f h = 0) (hp : p = 0 ∨ 2 * p = fs) :
    oddFold f fs p = 0 := by
  rw [oddFold, if_pos (by omega), hf p hp]

/-- The fold is odd about the whole turn, where the half turn ends in zeros (R113 S3). -/
theorem oddFold_sub_mod {f : ℕ → ℤ} {fs p : ℕ} (hf : ∀ h, h = 0 ∨ 2 * h = fs → f h = 0) (hp : p < fs) :
    oddFold f fs ((fs - p) % fs) = -oddFold f fs p := by
  rcases Nat.eq_zero_or_pos p with rfl | hpos
  · rw [Nat.sub_zero, Nat.mod_self, oddFold_of_zero hf (.inl rfl), neg_zero]
  · rw [Nat.mod_eq_of_lt (by omega), oddFold, oddFold]
    rcases lt_trichotomy (2 * p) fs with hlt | heq | hgt
    · rw [if_neg (by omega), if_pos hlt.le, Nat.sub_sub_self hp.le]
    · rw [if_pos (by omega), if_pos heq.le, hf p (.inr heq), hf (fs - p) (.inr (by omega)), neg_zero]
    · rw [if_pos (by omega), if_neg (by omega), neg_neg]

/-- S1 for the whole turn (R113). -/
theorem abs_sinq_sub_sinRef_le (tol fs p : ℕ) : |sinq tol fs p - sinRef fs p| ≤ tol := by
  rw [sinq_eq_oddFold, sinRef, oddFold, oddFold]
  split
  · exact abs_halfUnit_sub_le tol fs p
  · rw [neg_sub_neg, abs_sub_comm]
    exact abs_halfUnit_sub_le tol fs (fs - p)

/-- Settles O22, S1 to S4 in turn. -/
theorem sineUnitKeepsItsProperties : Obligations.SineUnitKeepsItsProperties := by
  intro tol fs p _ hp
  obtain ⟨hlow, hhigh⟩ := sinq_bounds tol fs p
  have hzeros : ∀ h, h = 0 ∨ 2 * h = fs → halfUnit tol fs h = 0 := fun _ => halfUnit_of_zero tol
  refine ⟨abs_sinq_sub_sinRef_le tol fs p, ?_, fun heven => ?_, ?_, hlow, hhigh, sinq_zero_tol fs p⟩
  · rw [sinq_eq_oddFold, oddFold_of_zero hzeros (.inl rfl)]
  · rw [sinq_eq_oddFold, oddFold_of_zero hzeros (.inr (Nat.mul_div_cancel' heven))]
  · rw [sinq_eq_oddFold, sinq_eq_oddFold, oddFold_sub_mod hzeros hp]

theorem tableSize_pos {fs : ℕ} (hfs : 0 < fs) : 0 < tableSize fs :=
  Nat.div_gcd_pos_of_pos_left _ hfs

/-- The address of the table is the phase, as a part of a turn (R114). -/
theorem exactSine_tableAddress {fs : ℕ} (hfs : 0 < fs) (i : ℕ) :
    exactSine (tableSize fs) (tableAddress fs i) = exactSine fs (phaseAt fs i) := by
  have hturn : ((i * (Config.FC / Nat.gcd fs Config.FC) : ℕ) : ℝ) / (tableSize fs : ℕ) = (i * Config.FC : ℕ) / fs := by
    rw [tableSize, ← Nat.mul_div_assoc i (Nat.gcd_dvd_right fs Config.FC),
      Nat.cast_div_div_div_cancel_right (Nat.gcd_dvd_left fs Config.FC)
        ((Nat.gcd_dvd_right fs Config.FC).mul_left i)]
  rw [tableAddress, phaseAt, exactSine_mod (tableSize_pos hfs), exactSine_mod hfs, exactSine_congr hturn]

/-- Settles O23: table and reference are the rounded sine at the same part of a turn, and the reference is odd. -/
theorem lookupTableIsExact : Obligations.LookupTableIsExact := by
  refine fun fs hfs => ⟨fun i => ?_, fun q hq => oddFold_sub_mod (fun _ => halfReference_of_zero) hq⟩
  have haddress : tableAddress fs i < tableSize fs := Nat.mod_lt _ (tableSize_pos hfs)
  have hphase : phaseAt fs i < fs := Nat.mod_lt _ hfs
  rw [tableEntry, sinRef_eq_exactSine (tableSize_pos hfs) haddress.le, sinRef_eq_exactSine hfs hphase.le,
    exactSine_tableAddress hfs]

/-! ### Segments, phases and samples (O16, O18 to O21, O25) -/

theorem bitIndex_eq_div {spb i : ℕ} (hi : i < 11 * spb) : bitIndex spb i = i / spb :=
  Nat.mod_eq_of_lt (Nat.div_lt_of_lt_mul (Nat.mul_comm 11 spb ▸ hi))

/-- Settles O16: inside BUF the modulus does not act, and the quotient is `j` on the segment of `j`. -/
theorem segmentsOwnEqualSamples : Obligations.SegmentsOwnEqualSamples := by
  intro spb i j hspb hj
  constructor
  · rintro ⟨hlow, hhigh⟩
    have hlast : (j + 1) * spb ≤ 11 * spb := Nat.mul_le_mul_right spb hj
    have hinside : i < 11 * spb := hhigh.trans_le hlast
    exact ⟨hinside, (bitIndex_eq_div hinside).trans (Nat.div_eq_of_lt_le hlow hhigh)⟩
  · rintro ⟨hinside, howner⟩
    rw [bitIndex_eq_div hinside, Nat.div_eq_iff hspb] at howner
    rw [Nat.succ_mul]
    omega

/-- Settles O18, from the range of the sine unit. -/
theorem samplesStayInRange : Obligations.SamplesStayInRange := by
  intro s f i
  obtain ⟨hlow, hhigh⟩ := sampleValue_bounds s f i
  exact ⟨hlow, hhigh, toInt_ofInt_sampleValue s f i, ofInt_sampleValue_ne_min s f i⟩

theorem sampleValue_off {s : State} {f : Frame} {i : ℕ} (h : f.getLsbD (bitIndex s.spb i) = false) :
    sampleValue s f i = 0 :=
  if_neg (by simp [h])

theorem sampleValue_on {s : State} {f : Frame} {i : ℕ} (h : f.getLsbD (bitIndex s.spb i) = true) :
    sampleValue s f i = polSign s.pol * sinq s.tol s.fs (phaseAt s.fs i) :=
  if_pos h

/-- Settles O19, for either value of the owning bit. -/
theorem samplesFollowTheFrameBit : Obligations.SamplesFollowTheFrameBit := by
  intro s f g i
  refine ⟨sampleValue_off, sampleValue_on, fun hagree => ?_⟩
  rw [sampleValue, sampleValue, hagree]

@[simp] theorem phaseAt_zero (fs : ℕ) : phaseAt fs 0 = 0 := by
  rw [phaseAt, Nat.zero_mul, Nat.zero_mod]

/-- One advance of the accumulator takes the phase of an index to the phase of the next (R110). -/
@[simp] theorem phaseNext_phaseAt (fs i : ℕ) : phaseNext fs (phaseAt fs i) = phaseAt fs (i + 1) := by
  rw [phaseNext, phaseAt, phaseAt, Nat.mod_add_mod, Nat.succ_mul]

/-- From any index on, the accumulator that starts at its phase makes the samples of the direct formula. -/
theorem accumulatorWords_phaseAt (s : State) (f : Frame) (n i : ℕ) :
    accumulatorWords s f n i (phaseAt s.fs i) =
      (List.range' i n).map (fun j => BitVec.ofInt 16 (sampleValue s f j)) := by
  induction n generalizing i with
  | zero => rfl
  | succ n ih => rw [accumulatorWords, phaseNext_phaseAt, ih, List.range'_succ, List.map_cons, sampleValue]

/-- Settles O20: index 0 has phase 0. -/
theorem phaseAccumulatorMakesTheSamples : Obligations.PhaseAccumulatorMakesTheSamples := by
  intro s f
  have hwords := accumulatorWords_phaseAt s f s.total 0
  rwa [phaseAt_zero, ← List.range_eq_range'] at hwords

/-- Settles O21: eleven times the floor of `8 * FS / 16386` is at most `88 * FS / 16386`. -/
theorem phaseProductsAreBounded : Obligations.PhaseProductsAreBounded := by
  intro fs i hfs hi
  have hphase : phaseAt fs i < fs := Nat.mod_lt _ hfs
  have hfloor : Config.samplesPerBit fs * Config.FC ≤ Config.PERIODS * fs := Nat.div_mul_le_self _ _
  simp only [Config.NBITS, Config.FC, Config.PERIODS] at *
  omega

theorem polSign_eq (b : Polarity) : (polSign b : ℝ) = 1 - 2 * (b.toNat : ℝ) := by
  simp [polSign]

/-- The polarity passes through the rounding, since rounding is odd (R119). -/
theorem rhaz_polSign_mul (b : Polarity) (x : ℝ) : rhaz (polSign b * x) = polSign b * rhaz x := by
  rcases polSign_cases b with h | h <;> simp [h]

/-- Settles O25: the sine unit is the rounded sine at the phase, which is the angle of the index less whole turns. -/
theorem samplesAreExactAtEveryRate : Obligations.SamplesAreExactAtEveryRate := by
  intro s f i htol hfs hi hbit
  have hphase : phaseAt s.fs i < s.fs := Nat.mod_lt _ hfs
  have hreference : sinRef s.fs (phaseAt s.fs i) = exactSine s.fs (i * Config.FC) := by
    rw [sinRef_eq_exactSine hfs hphase.le, phaseAt, exactSine_mod hfs]
  have hangle : (Config.AMAX : ℝ) * Real.sin (2 * Real.pi * (i * Config.FC : ℕ) / s.fs) =
      Real.sin (2 * Real.pi * i * 16386 / s.fs) * 32767 := by
    rw [mul_comm, Nat.cast_mul, ← mul_assoc]
    norm_num [Config.AMAX, Config.FC]
  rw [sampleValue_on (by rwa [bitIndex_eq_div hi]), htol, sinq_zero_tol, hreference, exactSine, hangle,
    ← rhaz_polSign_mul, polSign_eq, mul_assoc (1 - 2 * (s.pol.toNat : ℝ))]

/-! ### SETPOL and SYNTH as commands (O13 to O15, O17) -/

/-- Settles O13, by DEV and BUSY. -/
theorem setpolSetsThePolarity : Obligations.SetpolSetsThePolarity := by
  intro b s
  refine ⟨fun hdev hbusy => ?_, fun hdev hbusy => ?_, fun hdev => exec_released hdev (.setpol b)⟩
  · rw [exec_eq, execState, if_neg hdev, if_neg (by simp [hbusy]), setpolPhase, respond]
  · rw [exec_eq, execState, if_neg hdev, if_pos hbusy, hold]

/-- Where it may go, SYNTH runs its phase. -/
theorem exec_synth_free {s : State} (hdev : s.dev ≠ .released) (hbusy : s.busy = false) :
    exec .synth s = .next (synthPhase s) := by
  rw [exec_eq, execState, if_neg hdev, if_neg (by simp [hbusy])]

/-- SYNTH without a frame only raises E_NOFRAME (R102). -/
theorem synthPhase_of_no_frame {s : State} (h : s.fv = false) : synthPhase s = raise .noFrame true s := by
  have hframe : s.frame = none := by simpa [State.fv] using h
  rw [synthPhase, hframe]

/-- Settles O14, by DEV, BUSY and FV. -/
theorem synthWithoutAFrame : Obligations.SynthWithoutAFrame := by
  intro s
  refine ⟨fun hdev hbusy hfv => ?_, fun hdev hbusy => ?_, fun hdev => exec_released hdev .synth⟩
  · rw [exec_synth_free hdev hbusy, synthPhase_of_no_frame hfv, raise, if_pos rfl]
  · rw [exec_eq, execState, if_neg hdev, if_pos hbusy, hold]

/-- With a frame SYNTH fills the buffer with its samples and answers OK (R103). -/
theorem exec_synth_frame {s : State} {f : Frame} (hdev : s.dev ≠ .released) (hbusy : s.busy = false)
    (hframe : s.frame = some f) : exec .synth s = .next (respond .ok (synthFrame f s)) := by
  rw [exec_synth_free hdev hbusy, synthPhase, hframe]

/-- After a SYNTH the read port shows every sample as its integer (R52, R118). -/
theorem sampleRead_synthFrame (s : State) (f : Frame) {i : ℕ} (hi : i < s.total) :
    (respond .ok (synthFrame f s)).sampleRead i = .ok (sampleValue s f i) := by
  have hread : Memory.read (respond .ok (synthFrame f s)).buf i = some (BitVec.ofInt 16 (sampleValue s f i)) := by
    rw [respond_buf, read_synthFrame, if_pos hi]
  rw [sampleRead_of_read (s := respond .ok (synthFrame f s)) rfl hi hread, toInt_ofInt_sampleValue]

/-- Settles O15: the words of the samples below TOTAL, the old words above. -/
theorem synthWritesEverySample : Obligations.SynthWritesEverySample := by
  intro s f hdev hbusy hframe
  refine ⟨_, exec_synth_frame hdev hbusy hframe, fun i hi => sampleRead_synthFrame s f hi, fun i hi => ?_, rfl⟩
  rw [respond_buf, read_synthFrame, if_neg hi.not_gt]

/-- The two polarities have opposite multipliers, and a silent sample is its own negative (R119). -/
theorem sampleValue_inverted (s : State) (f : Frame) (i : ℕ) :
    sampleValue { s with pol := 1#1 } f i = -sampleValue { s with pol := 0#1 } f i := by
  have hplus : polSign 0#1 = 1 := rfl
  have hminus : polSign 1#1 = -1 := rfl
  unfold sampleValue
  split
  · rw [hplus, hminus, one_mul, neg_one_mul]
  · rfl

/-- Settles O17: each read gives the sample of its polarity. -/
theorem polarityNegatesEverySample : Obligations.PolarityNegatesEverySample := by
  intro s f hdev hbusy hframe
  refine ⟨_, _, exec_synth_frame (s := { s with pol := 0#1 }) hdev hbusy hframe,
    exec_synth_frame (s := { s with pol := 1#1 }) hdev hbusy hframe, fun i hi => ?_⟩
  refine ⟨_, sampleRead_synthFrame { s with pol := 0#1 } f hi, ?_⟩
  rw [sampleRead_synthFrame { s with pol := 1#1 } f hi, sampleValue_inverted]

end Sys2Proof.Machine

namespace Sys2Proof.Machine

/-! ### The stages of one transaction as a run -/

/-- A run of any machine goes on from the next state of its first step. -/
theorem core_run_succ {M : Host.Core} {s t : M.State} (h : M.step s = .next t) (n : Nat) : M.run (n + 1) s = M.run n t := by
  rw [Host.Core.run, h]

theorem run_succ_of_step {s t : State} (h : step s = .next t) (n : Nat) :
    Host.Core.run Sys2Proof.core (n + 1) s = Host.Core.run Sys2Proof.core n t :=
  core_run_succ (M := Sys2Proof.core) h n

/-- A move that only a transaction in flight has a use for: an answer of the device, or the end of the settle wait. -/
def servesTxn : Move → Bool
  | .answer _ | .settleExpiry => true
  | .host _ | .shell | .tick | .repeatExpiry | .settleInterrupt | .reset _ => false

/-- With no transaction in flight such a move is only taken off the list (log 12). -/
theorem step_of_servesTxn {s : State} {m : Move} {ms : List Move} (hmoves : s.moves = m :: ms) (hm : servesTxn m = true)
    (hfree : s.inflight = none) : step s = .next { s with moves := ms } := by
  rw [step_of_moves_cons hmoves]
  cases m with
  | answer ok => simp only [act, deviceAnswer, hfree]
  | settleExpiry => simp only [act, endWait, hfree]
  | host | shell | tick | repeatExpiry | settleInterrupt | reset => cases hm

/-- The answers left over after an abort change nothing (log 12). -/
theorem run_leftover (l : List Move) (hl : ∀ m ∈ l, servesTxn m = true) {s : State} {ms : List Move}
    (hmoves : s.moves = l ++ ms) (hfree : s.inflight = none) :
    Host.Core.run Sys2Proof.core l.length s = .next { s with moves := ms } := by
  induction l generalizing s with
  | nil =>
    obtain ⟨⟩ := s
    cases hmoves
    rfl
  | cons m l ih =>
    rw [List.length_cons, run_succ_of_step (step_of_servesTxn hmoves (hl m List.mem_cons_self) hfree)]
    exact ih (fun m' hm' => hl m' (List.mem_cons_of_mem m hm')) rfl hfree

/-- The transaction `x` has made the calls `calls` and has ended with the code `c`, with the moves `ms` still to come. -/
def finish (x : Txn) (c : Code) (calls : List DevCall) (ms : List Move) (s : State) : State :=
  endTxn c x { s with devtrace := s.devtrace ++ calls, moves := ms }

theorem finish_logCall (x : Txn) (c : Code) (calls : List DevCall) (ms : List Move) (d : DevCall) (s : State) :
    finish x c calls ms (logCall d s) = finish x c (d :: calls) ms s := by
  simp [finish, logCall]

/-- The first fail answer is the last call (R131, R134): a stage that records its call `d` in `u` goes on to the stage `g` with
the answer ok and ends the transaction with the code `c` on fail, after which the moves `l` meant for the stages to come find no
call outstanding. -/
theorem run_answered {s u : State} {x : Txn} {ok : Bool} {d : DevCall} {g : Stage} {c code : Code} {calls : List DevCall}
    {l ms : List Move}
    (hstep : step s = .next (if ok then goTo g x (logCall d u) else endTxn c x (logCall d u)))
    (hl : ∀ m ∈ l, servesTxn m = true) (hmoves : u.moves = l ++ ms)
    (hnext : Host.Core.run Sys2Proof.core l.length (goTo g x (logCall d u)) = .next (finish x code calls ms (logCall d u))) :
    Host.Core.run Sys2Proof.core (l.length + 1) s =
      .next (finish x (if ok then code else c) (d :: if ok then calls else []) ms u) := by
  rw [run_succ_of_step hstep]
  cases ok with
  | true => exact hnext.trans (congrArg _ (finish_logCall ..))
  | false => exact run_leftover l hl hmoves rfl

/-- The Reload stage answers the transaction either way (R137). -/
theorem run_reload {x : Txn} {u : State} {re : Bool} {ms : List Move} (hmoves : u.moves = .answer re :: ms) :
    Host.Core.run Sys2Proof.core 1 (goTo .reload x u) =
      .next (finish x (if re then .ok else .reload) [.reloadBuffer re] ms u) :=
  run_succ_of_step (step_of_moves_cons (s := goTo .reload x u) hmoves) 0

/-- The Stop stage and what follows (R137). -/
theorem run_stop {x : Txn} {u : State} {st re : Bool} {ms : List Move}
    (hmoves : u.moves = .answer st :: .answer re :: ms) :
    Host.Core.run Sys2Proof.core 2 (goTo .stop x u) =
      .next (finish x (if st then (if re then .ok else .reload) else .stop)
        (.stop st :: if st then [.reloadBuffer re] else []) ms u) :=
  run_answered (l := [.answer re]) (u := { goTo .stop x u with moves := .answer re :: ms })
    (step_of_moves_cons (s := goTo .stop x u) hmoves) (by simp [servesTxn]) rfl (run_reload rfl)

/-- The Wait stage makes no call (R135). -/
theorem run_wait {x : Txn} {u : State} {st re : Bool} {ms : List Move}
    (hmoves : u.moves = .settleExpiry :: .answer st :: .answer re :: ms) :
    Host.Core.run Sys2Proof.core 3 (goTo .wait x u) =
      .next (finish x (if st then (if re then .ok else .reload) else .stop)
        (.stop st :: if st then [.reloadBuffer re] else []) ms u) :=
  (run_succ_of_step (step_of_moves_cons (s := goTo .wait x u) hmoves) 2).trans
    (run_stop (u := { goTo .wait x u with moves := .answer st :: .answer re :: ms }) rfl)

/-- The Play stage and what follows (R134). -/
theorem run_play {x : Txn} {u : State} {p st re : Bool} {ms : List Move}
    (hmoves : u.moves = .answer p :: .settleExpiry :: .answer st :: .answer re :: ms) :
    Host.Core.run Sys2Proof.core 4 (goTo .play x u) =
      .next (finish x (if p then (if st then (if re then .ok else .reload) else .stop) else .play)
        (.play p :: if p then (.stop st :: if st then [.reloadBuffer re] else []) else []) ms u) :=
  run_answered (l := [.settleExpiry, .answer st, .answer re])
    (u := { goTo .play x u with moves := .settleExpiry :: .answer st :: .answer re :: ms })
    (step_of_moves_cons (s := goTo .play x u) hmoves) (by simp [servesTxn]) rfl (run_wait rfl)

/-- With BUF full the answer to the Write stage is recorded with all its samples (R134). -/
theorem step_write {x : Txn} {u : State} {w : Bool} {ms : List Move} (hmoves : u.moves = .answer w :: ms)
    (hfilled : Memory.filled u.buf u.total = true) :
    step (goTo .write x u) =
      .next (if w then goTo .play x (logCall (.write (Memory.samples u.buf u.total) w) { u with moves := ms })
        else endTxn .write x (logCall (.write (Memory.samples u.buf u.total) w) { u with moves := ms })) := by
  rw [step_of_moves_cons (s := goTo .write x u) hmoves]
  exact if_pos hfilled

/-- The Write stage and what follows, with BUF full: the calls of R131 in their order, cut short after the first fail. -/
theorem run_write {x : Txn} {u : State} {w p st re : Bool} {ms : List Move}
    (hmoves : u.moves = .answer w :: .answer p :: .settleExpiry :: .answer st :: .answer re :: ms)
    (hfilled : Memory.filled u.buf u.total = true) :
    Host.Core.run Sys2Proof.core 5 (goTo .write x u) =
      .next (finish x (transactionCode w p st re)
        (transactionCalls (Memory.samples u.buf u.total) w p st re) ms u) :=
  run_answered (l := [.answer p, .settleExpiry, .answer st, .answer re])
    (u := { u with moves := .answer p :: .settleExpiry :: .answer st :: .answer re :: ms })
    (step_write hmoves hfilled) (by simp [servesTxn]) rfl (run_play rfl)

/-- BUF is full once a frame is written over it (R33). -/
theorem filled_synthFrame (f : Frame) (s : State) : Memory.filled (synthFrame f s).buf s.total = true :=
  (Memory.filled_iff _ _).2 fun i hi => ⟨_, (read_synthFrame s f i).trans (if_pos hi)⟩

/-- The state a transaction of `k` ends in, begun in `v`: KEY, FRAME and BUF are those of `k`, and the device was given its
samples (R131 to R137). -/
def sent (k : Key) (src : Source) (w p st re : Bool) (ms : List Move) (v : State) : State :=
  finish ⟨.encode, k, src⟩ (transactionCode w p st re) (transactionCalls (keySamples v k) w p st re) ms
    (synthFrame (frameOf k) (encodeKey k v))

/-- The seven stages of a transaction, for every answer of the device. -/
theorem run_transaction (k : Key) (src : Source) {v : State} {w p st re : Bool} {ms : List Move}
    (hmoves : v.moves = transactionMoves w p st re ++ ms) :
    Host.Core.run Sys2Proof.core 7 (beginTxn k src v) = .next (sent k src w p st re ms v) := by
  set x : Txn := ⟨.encode, k, src⟩
  set u : State := encodeKey k { v with moves := (transactionMoves w p st re).tail ++ ms }
  have hencode : step (beginTxn k src v) = .next (goTo .synth x u) := step_of_moves_cons (s := beginTxn k src v) hmoves
  set u' : State := synthFrame (frameOf k) { u with moves := u.moves.tail }
  have hsynth : step (goTo .synth x u) = .next (goTo .write x u') := step_of_moves_cons (s := goTo .synth x u) rfl
  rw [run_succ_of_step hencode, run_succ_of_step hsynth, run_write (u := u') rfl (filled_synthFrame _ _)]
  have hsamples : Memory.samples u'.buf u'.total = keySamples v k := samples_synthFrame _ _
  rw [hsamples]
  rfl

/-- After a transaction of `k` the read port shows the samples of `k`. -/
theorem sampleRead_sent (k : Key) (src : Source) (w p st re : Bool) (ms : List Move) (v : State) {i : Nat}
    (hi : i < v.total) : (sent k src w p st re ms v).sampleRead i = .ok (sampleValue v (frameOf k) i) :=
  sampleRead_synthFrame (encodeKey k v) (frameOf k) hi

/-- A transaction leaves every word at TOTAL and above. -/
theorem read_sent_of_total_le (k : Key) (src : Source) (w p st re : Bool) (ms : List Move) (v : State) {i : Nat}
    (hi : v.total ≤ i) : Memory.read (sent k src w p st re ms v).buf i = Memory.read v.buf i :=
  (read_synthFrame (encodeKey k v) (frameOf k) i).trans (if_neg hi.not_gt)

theorem inflight_eq_none {s : State} (h : s.busy = false) : s.inflight = none := by
  simpa [State.busy] using h

/-! ### A command at its arrival and the whole TRANSMIT (O29, O30) -/

/-- A command that arrives during a transaction is held, STARTREPEAT apart (R136). -/
theorem exec_waits {i : Instr} {s : State} (hdev : s.dev ≠ .released) (hbusy : s.busy = true)
    (hkind : ∀ k, i ≠ .startrepeat k) : exec i s = .next (hold i (arrive i s)) := by
  refine (exec_eq i s).trans (congrArg _ ((if_neg hdev).trans ?_))
  cases i with
  | startrepeat k => exact absurd rfl (hkind k)
  | encode | synth | setpol | transmit | shutdown => exact if_pos hbusy

/-- A command that need not wait runs as a held one does, after its arrival (R136). -/
theorem exec_runs {i : Instr} {s : State} (hdev : s.dev ≠ .released) (hfree : s.busy = false ∨ ∃ k, i = .startrepeat k) :
    exec i s = .next (resume i (arrive i s)) := by
  refine (exec_eq i s).trans (congrArg _ ((if_neg hdev).trans ?_))
  cases i with
  | startrepeat k => rfl
  | encode | synth | setpol | transmit | shutdown => exact if_neg (by simp [hfree.resolve_right nofun])

/-- A ready device takes a TRANSMIT at once: the schedule is cancelled and the transaction begins (R130). -/
theorem exec_transmit_ready {s : State} (hdev : s.dev = .ready) (hbusy : s.busy = false) (k : Key) :
    exec (.transmit k) s = .next (beginTxn k .host (cancel s)) := by
  rw [exec_runs (by simp [hdev]) (.inl hbusy)]
  exact congrArg _ (if_pos hdev)

/-- Settles O29, by DEV and BUSY. -/
theorem transmitArrives : Obligations.TransmitArrives := by
  intro k s
  refine ⟨fun hdev hbusy => exec_transmit_ready hdev hbusy k, fun hdev hbusy => exec_waits hdev hbusy nofun,
    fun hdev hbusy => ?_, fun hdev => exec_released hdev (.transmit k)⟩
  rw [exec_runs (by simp [hdev]) (.inl hbusy)]
  exact congrArg _ (if_neg (by simp [hdev]))

/-- Settles O30: the arrival, then the seven stages. -/
theorem transmitSendsOneFrame : Obligations.TransmitSendsOneFrame := by
  intro k s w p st re ms hdev hbusy hheld hmoves
  have hflight := inflight_eq_none hbusy
  set a : State := { s with moves := transactionMoves w p st re ++ ms }
  set v : State := cancel a
  have harrive : exec (.transmit k) a = .next (beginTxn k .host v) := exec_transmit_ready (s := a) hdev hbusy k
  have hstep : step s = .next (beginTxn k .host v) :=
    (stepRunsTheDecodedCommand s _ _ _ hmoves (by simp [State.hostWaits, hheld, hflight]) (decode_encode _)).trans harrive
  have hrun : Host.Core.run Sys2Proof.core 7 (beginTxn k .host v) = .next (sent k .host w p st re ms v) :=
    run_transaction k .host rfl
  refine ⟨_, _, harrive, hrun, (run_succ_of_step hstep 7).trans hrun, fun i hi => sampleRead_sent k .host w p st re ms v hi,
    fun i hi => read_sent_of_total_le k .host w p st re ms v hi, ?_⟩
  obtain ⟨⟩ := s
  cases hflight
  rfl

/-! ### The tick and its whole transaction (O31, O38) -/

/-- An enabled tick begins a transaction of RKEY (R142). -/
theorem tick_of_enabled {s : State} {k : Key} (hrpt : s.rpt = .repeating k) (hdue : s.due = true) (hbusy : s.busy = false)
    (hdev : s.dev = .ready) : tick s = beginTxn k .tick { s with due := false } := by
  have henabled : s.tickEnabled = true := by simp [State.tickEnabled, State.repeats, hrpt, hdue, hbusy, hdev]
  rw [tick, hrpt]
  exact if_pos henabled

/-- Settles O38: an enabled tick starts, and one that starts was enabled. -/
theorem tickStartsOnlyWhenEnabled : Obligations.TickStartsOnlyWhenEnabled := by
  intro s ms hmoves
  rw [step_of_moves_cons hmoves]
  refine ⟨fun k hrpt hdue hbusy hdev => ?_, fun hdisabled => ?_⟩
  · exact congrArg _ (tick_of_enabled (s := { s with moves := ms }) hrpt hdue hbusy hdev)
  · refine congrArg _ ((tick_cases { s with moves := ms }).resolve_left ?_)
    rintro ⟨k, hrpt, hdue, hbusy, hdev, -⟩
    rcases hdisabled with h | h | h | h
    · exact absurd (hrpt.symm.trans h) nofun
    · exact absurd (hdue.symm.trans h) nofun
    · exact absurd (hbusy.symm.trans h) nofun
    · exact h hdev

/-- Settles O31: the tick, then the seven stages. -/
theorem tickSendsTheRepeatedKey : Obligations.TickSendsTheRepeatedKey := by
  intro k s w p st re ms hdev hbusy hrpt hdue hmoves
  have hflight := inflight_eq_none hbusy
  set v : State := { s with moves := transactionMoves w p st re ++ ms, due := false }
  have hstep : step s = .next (beginTxn k .tick v) :=
    (tickStartsOnlyWhenEnabled s _ hmoves).1 k hrpt hdue hbusy hdev
  refine ⟨_, (run_succ_of_step hstep 7).trans (run_transaction k .tick rfl),
    fun i hi => sampleRead_sent k .tick w p st re ms v hi, fun i hi => read_sent_of_total_le k .tick w p st re ms v hi, ?_⟩
  obtain ⟨⟩ := s
  cases hflight
  rfl

/-! ### The transaction in flight over every step (O33) -/

/-- The order of the stages (R131). -/
def stageOrder : List (Stage × Stage) :=
  [(.encode, .synth), (.synth, .write), (.write, .play), (.play, .wait), (.wait, .stop), (.stop, .reload)]

/-- In `t` the transaction `x` has ended, or stands with its key and source in the same stage or in the next (R131). -/
def GoesOnOrEnds (x : Txn) (t : State) : Prop :=
  t.inflight = none ∨ ∃ g, t.inflight = some { x with stage := g } ∧ (g = x.stage ∨ (x.stage, g) ∈ stageOrder)

theorem goesOnOrEnds_of_stays {x : Txn} {t : State} (h : t.inflight = some x) : GoesOnOrEnds x t :=
  .inr ⟨x.stage, h, .inl rfl⟩

theorem goesOnOrEnds_of_goTo {x : Txn} {g : Stage} {t : State} (h : t.inflight = some { x with stage := g })
    (hg : (x.stage, g) ∈ stageOrder) : GoesOnOrEnds x t :=
  .inr ⟨g, h, .inr hg⟩

/-- The device's answer takes the transaction to the next stage or ends it. -/
theorem goesOnOrEnds_of_answered {x : Txn} {g : Stage} (hg : (x.stage, g) ∈ stageOrder) (ok : Bool) (c : Code) (u : State) :
    GoesOnOrEnds x (if ok then goTo g x u else endTxn c x u) := by
  cases ok with
  | true => exact goesOnOrEnds_of_goTo rfl hg
  | false => exact .inl rfl

/-- A command leaves a transaction in flight as it is: it waits, or is a STARTREPEAT, which starts none (R136, R140). -/
theorem CommandEffect.inflight_of_busy {i : Instr} {s t : State} (h : CommandEffect i s t) (hbusy : s.busy = true) :
    t.inflight = s.inflight := by
  cases h with
  | released => rfl
  | waits => simp
  | runs dev free =>
    obtain ⟨k, rfl⟩ := free.resolve_left (by simp [hbusy])
    simp [resume]

/-- All a step that is no reset does to a transaction in flight. -/
theorem StepEffect.goesOnOrEnds {m : Option Move} {u t : State} (h : StepEffect m u t) (hm : ∀ r, m ≠ some (.reset r))
    {x : Txn} (hx : u.inflight = some x) : GoesOnOrEnds x t := by
  have hsame {y : Txn} (hy : u.inflight = some y) : y = x := Option.some.inj (hy.symm.trans hx)
  cases h with
  | command =>
    exact goesOnOrEnds_of_stays (((execState_effect _ u).inflight_of_busy ((busy_iff u).2 ⟨x, hx⟩)).trans hx)
  | illegal | still | expiry => exact goesOnOrEnds_of_stays (by simpa using hx)
  | encode move flight stage | synth move flight stage | waitEnd move flight stage =>
    obtain rfl := hsame flight
    exact goesOnOrEnds_of_goTo rfl (by simp [stage, stageOrder])
  | write flight stage | play flight stage | stop flight stage =>
    obtain rfl := hsame flight
    exact goesOnOrEnds_of_answered (by simp [stage, stageOrder]) _ _ _
  | reload => exact .inl rfl
  | resume move flight | tick move rpt due flight => exact absurd (hx.symm.trans flight) nofun
  | reset => exact absurd rfl (hm _)

/-- Settles O33, from what a step can do to the transaction in flight. -/
theorem oneTransactionAtATime : Obligations.OneTransactionAtATime := by
  intro s t x hx hno hstep
  exact (step_effect hstep).goesOnOrEnds hno hx

/-! ### The release in the record of device calls (O42) -/

/-- No call may follow a release (R173). -/
theorem TracePhase.next_gone (d : DevCall) : TracePhase.next .gone d = .broken := rfl

theorem TracePhase.next_broken (d : DevCall) : TracePhase.next .broken d = .broken := rfl

/-- A release either ends the record in order or breaks the order. -/
theorem TracePhase.next_release {p : TracePhase} (h : p.next .release ≠ .broken) : p.next .release = .gone := by
  cases p with
  | between => rfl
  | start | written | playing | stopped | lost | gone | broken => exact absurd rfl h

/-- In a record in order a release is the last call and the only one. -/
theorem release_of_not_broken {calls : List DevCall} (h : tracePhase calls ≠ .broken) :
    calls.count .release ≤ 1 ∧
    (DevCall.release ∈ calls → tracePhase calls = .gone ∧ calls.getLast? = some .release) := by
  induction calls using List.reverseRecOn with
  | nil => simp
  | append_singleton calls d ih =>
    rw [tracePhase_concat] at h ⊢
    have hbefore : tracePhase calls ≠ .broken := fun hp => h (by rw [hp, TracePhase.next_broken])
    have hnone : DevCall.release ∉ calls := fun hmem => h (by rw [((ih hbefore).2 hmem).1, TracePhase.next_gone])
    refine ⟨?_, fun hmem => ?_⟩
    · rw [List.count_append, List.count_eq_zero.2 hnone, Nat.zero_add]
      exact List.count_le_length
    · obtain rfl : DevCall.release = d := by simpa [hnone] using hmem
      exact ⟨TracePhase.next_release h, List.getLast?_concat⟩

/-- No stage asks for a record that is released or out of order. -/
theorem stagePhase_ne (x : Option Txn) : stagePhase x ≠ .broken ∧ stagePhase x ≠ .gone := by
  rcases x with _ | ⟨g, k, c⟩
  · exact ⟨nofun, nofun⟩
  · cases g <;> exact ⟨nofun, nofun⟩

/-- Under the invariants the record is in order, and ended by a release only with DEV = Released. -/
theorem State.TraceInv.in_order {s : State} (hs : s.TraceInv) (hconfigured : s.dev ≠ .unconfigured) :
    tracePhase s.devtrace ≠ .broken ∧ (tracePhase s.devtrace = .gone → s.dev = .released) := by
  cases hdev : s.dev with
  | unconfigured => exact absurd hdev hconfigured
  | ready =>
    obtain ⟨hbroken, hgone⟩ := stagePhase_ne s.inflight
    rw [hs.ready hdev]
    exact ⟨hbroken, fun h => absurd h hgone⟩
  | failed => rcases hs.failed hdev with h | h <;> rw [h] <;> exact ⟨nofun, nofun⟩
  | released => rcases hs.released hdev with h | h | h <;> rw [h] <;> exact ⟨nofun, fun _ => rfl⟩

/-- Settles O42, from the order of the record. -/
theorem releaseStandsAtMostOnce : Obligations.ReleaseStandsAtMostOnce := by
  intro s hcontrol htrace
  obtain ⟨hbroken, hgone⟩ := htrace.in_order hcontrol.configured
  obtain ⟨honce, hlast⟩ := release_of_not_broken hbroken
  exact ⟨honce, fun hmem => (hlast hmem).imp hgone id⟩

/-! ### No fault (O59) -/

/-- The Synth stage finds a frame (R133). -/
theorem shell_ne_fault {s : State} (hs : s.TxnInv) (e : Fault) : shell s ≠ .fault e := by
  unfold shell
  split
  case h_1 x hx =>
    cases hstage : x.stage with
    | synth =>
      obtain ⟨-, hframe⟩ := hs.key x hx (by simp [hstage])
      simp [synthStage, hframe]
    | encode | write | play | wait | stop | reload => exact nofun
  case h_2 => split <;> exact nofun

/-- The Write stage finds every word of BUF (R59). -/
theorem deviceAnswer_ne_fault {s : State} (hs : s.TxnInv) (ok : Bool) (e : Fault) : deviceAnswer ok s ≠ .fault e := by
  unfold deviceAnswer
  split
  case h_1 => exact nofun
  case h_2 x hx =>
    cases hstage : x.stage with
    | write =>
      have hfilled : Memory.filled s.buf s.total = true :=
        (Memory.filled_iff _ _).2 fun i hi => ⟨_, hs.buffer x hx hstage i hi⟩
      simp [writeStage, hfilled]
    | encode | synth | play | wait | stop | reload => exact nofun

/-- A word of the host runs a command, is answered, or is refused. -/
theorem hostMove_ne_fault (w : Word) (s : State) (e : Fault) : hostMove w s ≠ .fault e := by
  unfold hostMove
  split
  · exact nofun
  · split
    · rw [exec_eq]; exact nofun
    · exact nofun

theorem act_ne_fault {s : State} (hs : s.TxnInv) (m : Move) (e : Fault) : act m s ≠ .fault e := by
  cases m with
  | host w => exact hostMove_ne_fault w s e
  | shell => exact shell_ne_fault hs e
  | answer ok => exact deviceAnswer_ne_fault hs ok e
  | tick | repeatExpiry | settleExpiry | settleInterrupt => exact nofun
  | reset r =>
    simp only [act, resetMove]
    split <;> exact nofun

/-- Settles O59, move by move. -/
theorem noFaultUnderTheInvariant : Obligations.NoFaultUnderTheInvariant := by
  intro s e hs
  cases hmoves : s.moves with
  | nil =>
    rw [step, advance, hmoves]
    exact shell_ne_fault hs e
  | cons m ms =>
    rw [step_of_moves_cons hmoves]
    exact act_ne_fault (s := { s with moves := ms }) (hs.congr rfl rfl rfl rfl rfl rfl) m e

/-! ### The settle wait, the held command, the schedule and SHUTDOWN (O34 to O37, O41) -/

/-- Settles O34: an expiry and an interruption are the same operation. -/
theorem waitEndsEitherWay : Obligations.WaitEndsEitherWay := by
  intro s m ms hm hmoves
  have hstep : step s = .next (endWait { s with moves := ms }) := by
    rw [step_of_moves_cons hmoves]
    rcases hm with rfl | rfl <;> rfl
  rw [hstep]
  rcases endWait_cases { s with moves := ms } with ⟨y, hy, hstage, hend⟩ | ⟨hout, hend⟩
  · refine ⟨fun x hx _ => ?_, fun hout => absurd hstage (hout y hy)⟩
    obtain rfl : y = x := Option.some.inj (hy.symm.trans hx)
    rw [hend]
    rfl
  · exact ⟨fun x hx hstage => absurd hstage (hout x hx), fun _ => congrArg _ hend⟩

/-- Cancelling a schedule that is gone changes nothing. -/
theorem arrive_of_cancelled {i : Instr} {s : State} (h : cancelling i = true → s.rpt = .idle ∧ s.due = false) :
    arrive i s = s := by
  unfold arrive
  split
  case isFalse => rfl
  case isTrue hcancel =>
    obtain ⟨hrpt, hdue⟩ := h hcancel
    obtain ⟨⟩ := s
    cases hrpt
    cases hdue
    rfl

/-- Settles O35: the shell resumes the command, which after its arrival is all that `exec` does. -/
theorem heldCommandRunsAfterTheTransaction : Obligations.HeldCommandRunsAfterTheTransaction := by
  intro s i ms hmoves hheld hbusy hdev hcancelled
  have hflight := inflight_eq_none hbusy
  rw [step_of_moves_cons hmoves, exec_runs (s := { s with moves := ms, held := none }) hdev (.inl hbusy),
    arrive_of_cancelled (s := { s with moves := ms, held := none }) hcancelled]
  simp only [act, shell, hflight, hheld]

/-- Settles O36, by DEV: STARTREPEAT runs whatever BUSY is. -/
theorem startrepeatArmsTheSchedule : Obligations.StartrepeatArmsTheSchedule := by
  intro k s
  have hrun (hdev : s.dev ≠ .released) : exec (.startrepeat k) s = .next (startrepeatPhase k (cancel s)) :=
    exec_runs hdev (.inr ⟨k, rfl⟩)
  refine ⟨fun hdev => ?_, fun hdev => ?_, fun hdev => exec_released hdev (.startrepeat k)⟩
  · exact (hrun (by simp [hdev])).trans (congrArg _ (if_pos hdev))
  · exact (hrun (by simp [hdev])).trans (congrArg _ (if_neg (by simp [hdev])))

/-- Settles O37, by RPT. -/
theorem repeatExpirySetsDue : Obligations.RepeatExpirySetsDue := by
  intro s ms hmoves
  rw [step_of_moves_cons hmoves]
  exact ⟨fun k hrpt => congrArg _ (if_pos (by simp [State.repeats, hrpt])),
    fun hrpt => congrArg _ (if_neg (by simp [State.repeats, hrpt]))⟩

/-- A ready device is released, and the call recorded (R145). -/
theorem shutdownPhase_of_ready {s : State} (hdev : s.dev = .ready) :
    shutdownPhase s = respond .ok { logCall .release s with dev := .released } := by
  rw [shutdownPhase, if_pos hdev]

/-- A device that is not ready gets no call (R145). -/
theorem shutdownPhase_of_not_ready {s : State} (hdev : s.dev ≠ .ready) :
    shutdownPhase s = respond .ok { s with dev := .released } := by
  rw [shutdownPhase, if_neg hdev]

/-- Settles O41, by DEV and BUSY. -/
theorem shutdownReleasesTheDevice : Obligations.ShutdownReleasesTheDevice := by
  intro s
  refine ⟨fun hdev hbusy => ?_, fun hdev hbusy => ?_, fun hdev hbusy => exec_waits hdev hbusy nofun,
    fun hdev => exec_released hdev .shutdown⟩
  · rw [exec_runs (by simp [hdev]) (.inl hbusy)]
    exact congrArg _ (shutdownPhase_of_ready (s := cancel s) hdev)
  · rw [exec_runs (by simp [hdev]) (.inl hbusy)]
    exact congrArg _ (shutdownPhase_of_not_ready (s := cancel s) (by simp [hdev]))

end Sys2Proof.Machine

namespace Sys2Proof.Machine

/-! ### A due tick and a command at the same moment (O40) -/

/-- The word of a command, given while no command waits, runs that command (R70). -/
theorem step_of_host_encode {s : State} {i : Instr} {ms : List Move} (hmoves : s.moves = .host (encode i) :: ms)
    (hfree : s.hostWaits = false) : step s = exec i { s with moves := ms } :=
  stepRunsTheDecodedCommand s (encode i) ms i hmoves hfree (decode_encode i)

/-- Two steps in a row are a run of two. -/
theorem run_two_of_steps {s t u : State} (hfirst : step s = .next t) (hsecond : step t = .next u) :
    Host.Core.run Sys2Proof.core 2 s = .next u :=
  (run_succ_of_step hfirst 1).trans (run_succ_of_step hsecond 0)

/-- Settles O40, order by order: the TRANSMIT that comes first takes RPT and DUE from the tick (R142), and the tick that comes
first makes the block busy, so that the TRANSMIT is held (R136). -/
theorem tickAndCommandInEitherOrder : Obligations.TickAndCommandInEitherOrder := by
  intro s k l ms hdev hbusy hheld hrpt hdue
  have hflight := inflight_eq_none hbusy
  constructor
  · set a : State := { s with moves := .host (encode (.transmit l)) :: .tick :: ms }
    set sending : State := { s with moves := .tick :: ms, rpt := .idle, due := false, inflight := some ⟨.encode, l, .host⟩ }
    have hcommand : step a = .next sending :=
      (step_of_host_encode rfl (by simp [a, State.hostWaits, hheld, hflight])).trans
        ((transmitArrives l { s with moves := .tick :: ms }).1 hdev hbusy)
    have htick : step sending = .next { sending with moves := ms } :=
      (tickStartsOnlyWhenEnabled sending ms rfl).2 (.inl rfl)
    exact run_two_of_steps hcommand htick
  · set a : State := { s with moves := .tick :: .host (encode (.transmit l)) :: ms }
    set sending : State :=
      { s with moves := .host (encode (.transmit l)) :: ms, due := false, inflight := some ⟨.encode, k, .tick⟩ }
    have htick : step a = .next sending := (tickStartsOnlyWhenEnabled a _ rfl).1 k hrpt hdue hbusy hdev
    have hcommand : step sending = .next (hold (.transmit l) (cancel { sending with moves := ms })) :=
      (step_of_host_encode rfl (by simp [sending, State.hostWaits, hheld])).trans
        ((transmitArrives l { sending with moves := ms }).2.1 (by simp [sending, hdev]) rfl)
    exact run_two_of_steps htick hcommand

end Sys2Proof.Machine

namespace Sys2Proof.Machine

/-! ### The settle wait against the buffer (O28) -/

/-- Settles O28: TOTAL is eleven times the floor of `8 * FS / 16386`, and `88 * 1000 / 16386` is below 20. -/
theorem bufferFitsTheSettleWait : Obligations.BufferFitsTheSettleWait := by
  intro fs hfs
  have hfloor : Config.samplesPerBit fs * Config.FC ≤ Config.PERIODS * fs := Nat.div_mul_le_self _ _
  simp only [Config.NBITS, Config.FC, Config.PERIODS, Config.SETTLE_MS] at *
  omega

/-! ### The moves a step refuses (O8) -/

/-- The rates the rules do not speak of: below the lowest (R181), or wider than CR5 (log 13). -/
theorem not_admitted_iff (r : Startup) : ¬ r.admitted = true ↔ r.fs < 2049 ∨ 2 ^ 32 ≤ r.fs := by
  rw [admitted_iff]
  omega

/-- A reset is refused for its rate alone (R181). -/
theorem resetMove_refused_iff (r : Startup) (s : State) (e : Refusal) :
    resetMove r s = .refused e ↔ (r.fs < 2049 ∨ 2 ^ 32 ≤ r.fs) ∧ e = .sampleRateOutsideRules := by
  rw [← not_admitted_iff, resetMove]
  split
  case isTrue hadmitted => exact iff_of_false nofun fun hrefused => hrefused.1 hadmitted
  case isFalse hrate => simp [hrate, eq_comm]

/-- A word of the host is refused for the command that still waits alone: every command and every illegal word is answered. -/
theorem hostMove_refused_iff (w : Word) (s : State) (e : Refusal) :
    hostMove w s = .refused e ↔ s.hostWaits = true ∧ e = .commandOverlap := by
  unfold hostMove
  split
  case isTrue hwaits => simp [hwaits, eq_comm]
  case isFalse hfree => split <;> simp [hfree, exec_eq]

/-- Every branch of the shell goes on, but for the Synth stage, which faults where FRAME holds no value (R133). -/
theorem shell_ne_refused (s : State) (e : Refusal) : shell s ≠ .refused e := by
  unfold shell synthStage
  repeat' split
  all_goals exact nofun

/-- Every branch of an answer goes on, but for the Write stage, which faults where BUF is not full (R59). -/
theorem deviceAnswer_ne_refused (ok : Bool) (s : State) (e : Refusal) : deviceAnswer ok s ≠ .refused e := by
  unfold deviceAnswer writeStage
  repeat' split
  all_goals exact nofun

/-- All the moves that are refused: a word while a command waits (R188), and a reset with a rate outside the rules (R181). -/
theorem act_refused_cases {m : Move} {s : State} {e : Refusal} (h : act m s = .refused e) :
    (e = .commandOverlap ∧ s.hostWaits = true ∧ ∃ w, m = .host w) ∨
    (e = .sampleRateOutsideRules ∧ ∃ r : Startup, (r.fs < 2049 ∨ 2 ^ 32 ≤ r.fs) ∧ m = .reset r) := by
  cases m with
  | host w =>
    obtain ⟨hwaits, he⟩ := (hostMove_refused_iff w s e).1 h
    exact .inl ⟨he, hwaits, w, rfl⟩
  | reset r =>
    obtain ⟨hrate, he⟩ := (resetMove_refused_iff r s e).1 h
    exact .inr ⟨he, r, hrate, rfl⟩
  | shell => exact absurd h (shell_ne_refused s e)
  | answer ok => exact absurd h (deviceAnswer_ne_refused ok s e)
  | tick | repeatExpiry | settleExpiry | settleInterrupt => cases h

/-- Settles O8: a step is its move, and a move that is refused is one of the two; with no move left the shell goes on. -/
theorem stepRefusesOnlyOverlapAndRate : Obligations.StepRefusesOnlyOverlapAndRate := by
  refine ⟨fun s w ms hmoves hwaits => ?_, fun s r ms hmoves hrate => ?_, fun s e hstep => ?_⟩
  · rw [step_of_moves_cons hmoves]
    exact (hostMove_refused_iff w _ _).2 ⟨hwaits, rfl⟩
  · rw [step_of_moves_cons hmoves]
    exact (resetMove_refused_iff r _ _).2 ⟨hrate, rfl⟩
  · cases hmoves : s.moves with
    | nil =>
      rw [step, advance, hmoves] at hstep
      exact absurd hstep (shell_ne_refused s e)
    | cons m ms =>
      rw [step_of_moves_cons hmoves] at hstep
      simp only [List.head?_cons, Option.some.injEq]
      exact act_refused_cases (s := { s with moves := ms }) hstep

end Sys2Proof.Machine
